-- ==== Sys2Proof/Word.lean ====
section
/-!
DEFINITION. The word types: every state word is 32 bits (10_state.md R29) and a byte image is made of 8-bit bytes
(20_memory.md R41).
-/

namespace Sys2Proof

/-- A 32-bit word (00_scope.md R6, `W`). -/
abbrev Word := BitVec 32

/-- A byte of a byte image (20_memory.md R41). -/
abbrev Byte := BitVec 8

end Sys2Proof
end

