-- ==== Sys2Proof/Config.lean ====
section
/-!
DEFINITION. The implementation parameters of 00_scope.md R6. Every OPEN row is a field of `Params`; the machine runs
under the ONE constant `Config.params`, which has no body, so that a claim about the machine holds for every value of
every parameter (log entry 2). Definitions that read a parameter take a `Params` as an argument.
-/

namespace Sys2Proof
namespace Config

/-- The six morphed samples `m_0 … m_5` a spline evaluation combines (44_spline.md R101). -/
structure Samples where
  m0 : Word
  m1 : Word
  m2 : Word
  m3 : Word
  m4 : Word
  m5 : Word
deriving DecidableEq, Repr, Inhabited

/-- The OPEN rows of 00_scope.md R6. A count of 1..256 is held as the highest instance number, so that every value of
the field is a legal count. -/
structure Params where
  /-- NUM_BUF8 − 1 (R6, D11). -/
  lastBuf8 : Fin 256
  /-- NUM_BUF32 − 1. -/
  lastBuf32 : Fin 256
  /-- NUM_BUF256 − 1. -/
  lastBuf256 : Fin 256
  /-- NUM_OSC − 1. -/
  lastOsc : Fin 256
  /-- NUM_FAM − 1 (R6, D22: 1..16 families). -/
  lastFam : Fin 16
  /-- N_f − 1, the number of family f's last table (R6: N_f ≥ 1). -/
  lastTable : BitVec 4 → Nat
  /-- L_f − 6, the last legal left index of family f (R6: 6 ≤ L_f ≤ 65541). -/
  lastLeft : BitVec 4 → Fin 65536
  /-- `WT_f[j][i]` (20_memory.md R35, R38). Only arguments inside the table are ever passed (44_spline.md R100). -/
  wt : BitVec 4 → Nat → Nat → Word
  /-- `SINE[i]`, 4096 words (20_memory.md R39). -/
  sine : BitVec 12 → Word
  /-- SINE_FRAC_LSB, 0..4 (45_osc.md R119). -/
  sineFracLsb : Fin 5
  /-- PHASE_SHIFT_f, 0..16 (45_osc.md R120). -/
  phaseShift : BitVec 4 → Fin 17
  /-- The OPEN kernel before the named properties Q1 to Q3 are imposed on it (44_spline.md R102; `Machine.quintic`). -/
  kernel : Samples → BitVec 16 → Word
  /-- Which six-sample windows come from a table "whose samples vary smoothly" (44_spline.md R102, Q2). -/
  smooth : Samples → Bool
  /-- SPLINE_CONT_TOL (44_spline.md R102, Q2). -/
  contTol : Nat
  /-- SPLINE_MID_TOL (44_spline.md R102, Q3). -/
  midTol : Nat
  /-- P_BASE, the host bus address of the register block (20_memory.md R43). -/
  pBase : Nat
  /-- LAT_op by opcode: finite, and no rule of the model depends on it (70_reset_and_hazards.md R155). -/
  latency : BitVec 8 → Nat
deriving Inhabited

/-- The parameters of the modelled block: fixed, and not known to any proof (R6, R25, log entry 2). -/
opaque params : Params

/-- NUM_BUF8 (R6). -/
def Params.numBuf8 (p : Params) : Nat := p.lastBuf8.val + 1
/-- NUM_BUF32 (R6). -/
def Params.numBuf32 (p : Params) : Nat := p.lastBuf32.val + 1
/-- NUM_BUF256 (R6). -/
def Params.numBuf256 (p : Params) : Nat := p.lastBuf256.val + 1
/-- NUM_OSC (R6). -/
def Params.numOsc (p : Params) : Nat := p.lastOsc.val + 1
/-- NUM_FAM (R6). -/
def Params.numFam (p : Params) : Nat := p.lastFam.val + 1
/-- N_f (R6). -/
def Params.numTables (p : Params) (fam : BitVec 4) : Nat := p.lastTable fam + 1
/-- L_f (R6). -/
def Params.tableLength (p : Params) (fam : BitVec 4) : Nat := (p.lastLeft fam).val + 6

/-- FM_F: the fractional bits of the FM multiply (R6, D25). -/
def fmFracBits : Nat := 16

/-- SPLINE_SAT_BITS: the saturation width of the spline output (R6, 44_spline.md R104). -/
def splineSatBits : Nat := 15

end Config
end Sys2Proof
end

