-- ==== Sys2Proof/Machine/State.lean ====
section
/-!
DEFINITION. The architectural state (10_state.md R27), the host's accesses (60_exceptions.md R143), the reasons a step
can stop, and the state after reset (70_reset_and_hazards.md R147).
-/

namespace Sys2Proof
namespace Machine

/-- A circular buffer of depth `d`: data words and a write cursor (10_state.md R21). -/
structure Buf (d : Nat) where
  data : Vector Word d
  cursor : Word
deriving DecidableEq, Repr

/-- An oscillator (10_state.md R23). -/
structure Osc where
  frequency : Word
  phase : Word
  phaseModulation : Word
  lastPhaseModulation : Word
  morph : Word
deriving DecidableEq, Repr

/-- The three hardware faults (60_exceptions.md R131). -/
inductive Cause where
  | illegal
  | badInstance
  | tableRange
deriving DecidableEq, Repr

/-- The twelve words of the host register map (20_memory.md R43). -/
inductive HostReg where
  | cmd
  | opa
  | opb
  | opc
  | opd
  | ope
  | opf
  | res0
  | res1
  | status
  | fcmd
  | reserved
deriving DecidableEq, Repr

/-- One access of the host (60_exceptions.md R143): a bus read or write of `bytes` bytes at an offset from P_BASE
(20_memory.md R43), or the reset signal between accesses (70_reset_and_hazards.md R148). -/
inductive Access where
  | read (offset bytes : Nat)
  | write (offset bytes : Nat) (value : Word)
  | reset
deriving DecidableEq, Repr

/-- The state of the block (10_state.md R27), and the host's side of its bus: the accesses still to be made and what the
last one gave back (log entry 4). -/
structure State where
  opa : Word
  opb : Word
  opc : Word
  opd : Word
  ope : Word
  opf : Word
  res0 : Word
  res1 : Word
  status : Word
  fcmd : Word
  buf8 : List (Buf 8)
  buf32 : List (Buf 32)
  buf256 : List (Buf 256)
  osc : List Osc
  pending : List Access
  reply : Option Word
deriving DecidableEq, Repr

/-- Why the STRICT machine of Safety.lean stops. No step of the machine itself ends in a fault: the hardware's own
faults are next states (60_exceptions.md R133). -/
inductive Fault where
  /-- The model-only fault of 10_state.md R15 and 60_exceptions.md R137: a register was read that nothing has written
  since reset. Raised by `Safety.strictStep` alone, never by `step`. Safe: the hardware goes on with an unspecified
  word. -/
  | unwrittenRegister (r : HostReg)
deriving DecidableEq, Repr

/-- Why a step has no meaning. -/
inductive Refusal where
  /-- An instruction with no meaning yet, by its mnemonic. Raised by no arm of `exec`. Safe. -/
  | notModelled (mnemonic : String)
  /-- A host access that is not 32 bits wide (20_memory.md R42: not admitted, "a model refuses the access"). Raised by
  `hostAccess`. Safe. -/
  | accessWidth (bytes : Nat)
  /-- A 32-bit host access at an offset that is not in the register map (20_memory.md R42, R43: not admitted). Raised by
  `hostAccess`. Safe. -/
  | accessOffset (offset : Nat)
deriving DecidableEq, Repr

/-- The outcome of a step of the block. -/
abbrev Outcome := Host.Outcome State Fault Refusal

/-- A buffer instance after reset: every data word 0 and the cursor 0 (10_state.md R22). -/
def Buf.reset (d : Nat) : Buf d := { data := Vector.replicate d 0#32, cursor := 0#32 }

/-- An oscillator after reset: every field 0 (10_state.md R24). -/
def Osc.reset : Osc :=
  { frequency := 0#32, phase := 0#32, phaseModulation := 0#32, lastPhaseModulation := 0#32, morph := 0#32 }

/-- The block after reset (70_reset_and_hazards.md R147). The operand and result registers hold unspecified values there
(10_state.md R15); the model holds 0 in each: DESIGN CHOICE, unsafe, log entry 1. No access is pending: a program is the
host's sequence of accesses, loaded from outside (log entry 4). -/
def State.reset : State :=
  { opa := 0#32, opb := 0#32, opc := 0#32, opd := 0#32, ope := 0#32, opf := 0#32, res0 := 0#32, res1 := 0#32
    status := 0#32, fcmd := 0#32
    buf8 := List.replicate Config.params.numBuf8 (Buf.reset 8)
    buf32 := List.replicate Config.params.numBuf32 (Buf.reset 32)
    buf256 := List.replicate Config.params.numBuf256 (Buf.reset 256)
    osc := List.replicate Config.params.numOsc Osc.reset
    pending := [], reply := none }

end Machine
end Sys2Proof
end

