-- ==== Sys2Proof/Machine/Fixed.lean ====
section
/-!
DEFINITION. The fixed-point helpers shared by the command families: `mul`, `satU`, `satS`, `absw` (41_arith.md R64 to
R69), `lerpF` (43_interp.md R85) and the pre-differenced word (R87). Operands are widened to integers, computed exactly
and narrowed at the end (00_scope.md R8).
-/

namespace Sys2Proof
namespace Machine

/-- `trunc_32(x)` (00_scope.md R8). -/
def trunc32 (x : Int) : Word := BitVec.ofInt 32 x

/-- `mul(a, b, F)`: the exact signed product, shifted right by F with floor, its low 32 bits (41_arith.md R64). -/
def mul (a b : Word) (fracBits : Nat) : Word := trunc32 ((a.toInt * b.toInt) >>> fracBits)

/-- `satU(x, bits)`: clamp to `[0, 2^bits − 1]` (41_arith.md R67). -/
def satU (x : Word) (bits : Nat) : Word := trunc32 (min (max x.toInt 0) ((2 ^ bits - 1 : Nat) : Int))

/-- `satS(x, bits)`: clamp to the symmetric range `[−m, m]`, `m = 2^(bits−1) − 1` (41_arith.md R68). -/
def satS (x : Word) (bits : Nat) : Word :=
  trunc32 (min (max x.toInt (-((2 ^ (bits - 1) - 1 : Nat) : Int))) ((2 ^ (bits - 1) - 1 : Nat) : Int))

/-- `absw(x)`: `(x ^ m) − m` with m the sign mask (41_arith.md R69). -/
def absw (x : Word) : Word := (x ^^^ x.sshiftRight 31) - x.sshiftRight 31

/-- `lerpF(a, b, f, F)`: `a + (b − a)·f`, difference and sum modulo 2^32 (43_interp.md R85). -/
def lerpF (a b f : Word) (fracBits : Nat) : Word := a + mul (b - a) f fracBits

/-- `base(w)`: bits 15:0 of a pre-differenced word, signed (43_interp.md R87). -/
def pdBase (w : Word) : Int := (w.extractLsb' 0 16).toInt

/-- `delta(w)`: bits 31:16 of a pre-differenced word, signed (43_interp.md R87). -/
def pdDelta (w : Word) : Int := (w.extractLsb' 16 16).toInt

/-- `pd(w, f)`: the pre-differenced lerp, 16 fraction bits (43_interp.md R87). -/
def pd (w f : Word) : Word := trunc32 (pdBase w + (mul (trunc32 (pdDelta w)) f 16).toInt)

end Machine
end Sys2Proof
end

