-- ==== Sys2Proof/Syntax.lean ====
section
/-!
DEFINITION. The instructions: one constructor of `Instr` per row of the opcode map (30_encoding.md R56), with the
command fields of its format (R49 to R54), and the small types those fields name.
-/

namespace Sys2Proof

/-- The sample source of a step command: field `src` of format O (30_encoding.md R53; 0 = sine, 1 = spline). -/
inductive Source where
  | sine
  | spline
deriving DecidableEq, Repr

/-- The legal selectors of format R, in the order of their numbers 0..4 (30_encoding.md R54). -/
inductive OscField where
  | frequency
  | phase
  | phaseModulation
  | lastPhaseModulation
  | morph
deriving DecidableEq, Repr

/-- The two delta forms a command can write to RES1 (43_interp.md R88). -/
inductive DeltaForm where
  | raw
  | sgn
deriving DecidableEq, Repr

/-- A command of the VIA-CORE command set, revision 1 (30_encoding.md R56). The field `n` is the saturation width minus
one, `id` an instance number, `fam` a wavetable family. -/
inductive Instr where
  | nop
  | mul16
  | mul24
  | mul15
  | satu (n : BitVec 5)
  | sats (n : BitVec 5)
  | abs
  | bwr8 (id : BitVec 8)
  | brd8 (id : BitVec 8)
  | bwr32 (id : BitVec 8)
  | brd32 (id : BitVec 8)
  | bwr256 (id : BitVec 8)
  | brd256 (id : BitVec 8)
  | lerp16
  | lerp15
  | bilerp16
  | bilerp15
  | pdlerpRaw
  | pdlerpSgn
  | pdbilerpRaw
  | pdbilerpSgn
  | qevalRaw (fam : BitVec 4)
  | qevalSgn (fam : BitVec 4)
  | qevaliRaw (fam : BitVec 4)
  | qevaliSgn (fam : BitVec 4)
  | osetf (id : BitVec 8)
  | osetm (id : BitVec 8)
  | opm (id : BitVec 8)
  | ostep (id : BitVec 8) (src : Source) (fam : BitVec 4)
  | ostepfm (id : BitVec 8) (src : Source) (fam : BitVec 4)
  | obeat (id : BitVec 8) (src : Source) (fam : BitVec 4)
  | orst (id : BitVec 8)
  | ord (id : BitVec 8) (sel : OscField)
  | fold16
  | fold25
  | wrap16
deriving DecidableEq, Repr

/-- The six formats of a command word (30_encoding.md R49 to R54). -/
inductive Format where
  | n
  | s
  | i
  | f
  | o
  | r
deriving DecidableEq, Repr

/-- An entry of the opcode map: a format, and the command its field values make. -/
inductive Form where
  | n (cmd : Instr)
  | s (mk : BitVec 5 → Instr)
  | i (mk : BitVec 8 → Instr)
  | f (mk : BitVec 4 → Instr)
  | o (mk : BitVec 8 → Source → BitVec 4 → Instr)
  | r (mk : BitVec 8 → OscField → Instr)

/-- Why a word, or a byte image, is no command (30_encoding.md R57). All but `truncated` are the hardware's ILLEGAL. -/
inductive DecodeError where
  /-- R57 (a): the opcode is not in the opcode map. -/
  | unknownOpcode
  /-- R57 (b): a reserved bit of the format is 1. -/
  | reservedBit
  /-- R57 (c): format O with src = 0 and fam ≠ 0. -/
  | familyWithoutSpline
  /-- R57 (d): format R with sel in 5, 6, 7. -/
  | badSelector
  /-- A byte image shorter than one word: no command word at all (R47). -/
  | truncated
deriving DecidableEq, Repr

end Sys2Proof
end

