-- ==== Sys2Proof/WellFormed.lean ====
section
/-!
DEFINITION. Which terms of `Instr` are commands: the side condition of format O (30_encoding.md R53, R57 (c), R63). The
other conditions of R57 hold by the types of the fields.
-/

namespace Sys2Proof

/-- Format O: a family is named only for the spline source (30_encoding.md R53). -/
def Source.admitsFamily (src : Source) (fam : BitVec 4) : Bool :=
  match src with
  | .sine => fam == 0#4
  | .spline => true

/-- The well-formed commands. -/
def Instr.wellFormed : Instr → Bool
  | .ostep _ src fam => src.admitsFamily fam
  | .ostepfm _ src fam => src.admitsFamily fam
  | .obeat _ src fam => src.admitsFamily fam
  | .nop | .mul16 | .mul24 | .mul15 | .satu _ | .sats _ | .abs => true
  | .bwr8 _ | .brd8 _ | .bwr32 _ | .brd32 _ | .bwr256 _ | .brd256 _ => true
  | .lerp16 | .lerp15 | .bilerp16 | .bilerp15 => true
  | .pdlerpRaw | .pdlerpSgn | .pdbilerpRaw | .pdbilerpSgn => true
  | .qevalRaw _ | .qevalSgn _ | .qevaliRaw _ | .qevaliSgn _ => true
  | .osetf _ | .osetm _ | .opm _ | .orst _ | .ord _ _ => true
  | .fold16 | .fold25 | .wrap16 => true

/-- The command is one the block can be given (30_encoding.md R57, R63). -/
abbrev Instr.WellFormed (i : Instr) : Prop := i.wellFormed = true

end Sys2Proof
end

