-- ==== Sys2Proof/Decode.lean ====
section
/-!
DEFINITION. The decoder and the encoder of command words (30_encoding.md R47 to R63), the little-endian byte image of a
word (20_memory.md R41), and the host's table-word reading.
-/

namespace Sys2Proof

/-! ### The opcode map (R56) -/

/-- The rows of 30_encoding.md R56 with opcodes 0x00 to 0x15. -/
def opcodesArith : List (BitVec 8 × Form) :=
  [(0x00#8, .n .nop), (0x10#8, .n .mul16), (0x11#8, .n .mul24), (0x12#8, .n .mul15), (0x13#8, .s .satu),
   (0x14#8, .s .sats), (0x15#8, .n .abs)]

/-- The rows of 30_encoding.md R56 with opcodes 0x20 to 0x25. -/
def opcodesBuffer : List (BitVec 8 × Form) :=
  [(0x20#8, .i .bwr8), (0x21#8, .i .brd8), (0x22#8, .i .bwr32), (0x23#8, .i .brd32), (0x24#8, .i .bwr256),
   (0x25#8, .i .brd256)]

/-- The rows of 30_encoding.md R56 with opcodes 0x30 to 0x37. -/
def opcodesInterp : List (BitVec 8 × Form) :=
  [(0x30#8, .n .lerp16), (0x31#8, .n .lerp15), (0x32#8, .n .bilerp16), (0x33#8, .n .bilerp15),
   (0x34#8, .n .pdlerpRaw), (0x35#8, .n .pdlerpSgn), (0x36#8, .n .pdbilerpRaw), (0x37#8, .n .pdbilerpSgn)]

/-- The rows of 30_encoding.md R56 with opcodes 0x40 to 0x57. -/
def opcodesSplineOsc : List (BitVec 8 × Form) :=
  [(0x40#8, .f .qevalRaw), (0x41#8, .f .qevalSgn), (0x42#8, .f .qevaliRaw), (0x43#8, .f .qevaliSgn),
   (0x50#8, .i .osetf), (0x51#8, .i .osetm), (0x52#8, .i .opm), (0x53#8, .o .ostep), (0x54#8, .o .ostepfm),
   (0x55#8, .o .obeat), (0x56#8, .i .orst), (0x57#8, .r .ord)]

/-- The rows of 30_encoding.md R56 with opcodes 0x60 to 0x62. -/
def opcodesFold : List (BitVec 8 × Form) :=
  [(0x60#8, .n .fold16), (0x61#8, .n .fold25), (0x62#8, .n .wrap16)]

/-- The opcode map (30_encoding.md R56): every opcode value that is not listed is reserved. -/
def opcodeMap : List (BitVec 8 × Form) :=
  opcodesArith ++ opcodesBuffer ++ opcodesInterp ++ opcodesSplineOsc ++ opcodesFold

/-- The format of an entry of the opcode map. -/
def Form.format : Form → Format
  | .n _ => .n
  | .s _ => .s
  | .i _ => .i
  | .f _ => .f
  | .o _ => .o
  | .r _ => .r

/-- `reservedMask` (30_encoding.md R58): the bits of 31:8 that must be 0. -/
def Format.reservedMask : Format → Word
  | .n => 0xFFFFFF00#32
  | .s => 0xFFFFE000#32
  | .i => 0xFFFF0000#32
  | .f => 0xFFFFF000#32
  | .o => 0xFF0E0000#32
  | .r => 0xFFF80000#32

/-! ### Fields -/

/-- `OP = c[7:0]` (30_encoding.md R48). -/
def opcodeField (c : Word) : BitVec 8 := c.extractLsb' 0 8

/-- Field n of format S, c[12:8] (R50). -/
def widthField (c : Word) : BitVec 5 := c.extractLsb' 8 5

/-- Field id of formats I, O and R, c[15:8] (R51, R53, R54). -/
def idField (c : Word) : BitVec 8 := c.extractLsb' 8 8

/-- Field fam of format F, c[11:8] (R52). -/
def familyField (c : Word) : BitVec 4 := c.extractLsb' 8 4

/-- Field src of format O, c[16] (R53). -/
def sourceField (c : Word) : Source := if c.getLsbD 16 then .spline else .sine

/-- Field fam of format O, c[23:20] (R53). -/
def stepFamilyField (c : Word) : BitVec 4 := c.extractLsb' 20 4

/-- Field sel of format R, c[18:16] (R54). -/
def selectorField (c : Word) : BitVec 3 := c.extractLsb' 16 3

/-- The oscillator field a selector names; 5, 6 and 7 name none (R54). -/
def OscField.ofSelector (sel : BitVec 3) : Option OscField :=
  if sel = 0#3 then some .frequency
  else if sel = 1#3 then some .phase
  else if sel = 2#3 then some .phaseModulation
  else if sel = 3#3 then some .lastPhaseModulation
  else if sel = 4#3 then some .morph
  else none

/-! ### The decoder -/

/-- The command of a word whose opcode and reserved bits are already accepted: the last two encoding checks of R58. -/
def Form.command (form : Form) (c : Word) : Except DecodeError Instr :=
  match form with
  | .n cmd => .ok cmd
  | .s mk => .ok (mk (widthField c))
  | .i mk => .ok (mk (idField c))
  | .f mk => .ok (mk (familyField c))
  | .o mk =>
    if (sourceField c).admitsFamily (stepFamilyField c) then
      .ok (mk (idField c) (sourceField c) (stepFamilyField c))
    else .error .familyWithoutSpline
  | .r mk =>
    match OscField.ofSelector (selectorField c) with
    | some sel => .ok (mk (idField c) sel)
    | none => .error .badSelector

/-- The decoder of a command word, with the checks in the order of 30_encoding.md R58. Every error is ILLEGAL (R57). -/
def decode (c : Word) : Except DecodeError Instr :=
  match opcodeMap.lookup (opcodeField c) with
  | none => .error .unknownOpcode
  | some form =>
    if c &&& form.format.reservedMask ≠ 0#32 then .error .reservedBit else form.command c

/-! ### Byte images (20_memory.md R41) -/

/-- The little-endian byte image of a word: byte k holds bits 8k+7:8k (R41). -/
def wordBytes (c : Word) : List Byte :=
  [c.extractLsb' 0 8, c.extractLsb' 8 8, c.extractLsb' 16 8, c.extractLsb' 24 8]

/-- The word with the given four bytes, the first at the lowest address (R41). -/
def wordOfBytes (b0 b1 b2 b3 : Byte) : Word :=
  b0.setWidth 32 ||| (b1.setWidth 32 <<< 8) ||| (b2.setWidth 32 <<< 16) ||| (b3.setWidth 32 <<< 24)

/-- The decoder on a byte image: it consumes exactly one word (30_encoding.md R47, R62) and returns the rest. -/
def decodeBytes (bytes : List Byte) : Except DecodeError (Instr × List Byte) :=
  match bytes with
  | b0 :: b1 :: b2 :: b3 :: rest =>
    match decode (wordOfBytes b0 b1 b2 b3) with
    | .ok i => .ok (i, rest)
    | .error e => .error e
  | _ => .error .truncated

/-- What the decoder reads from an instruction whose `nbits` table bits are `w`, every bit above them 0. -/
def decodeTableWord (nbits w : Nat) : Option Instr :=
  match decodeBytes (wordBytes (BitVec.ofNat 32 (w % 2 ^ nbits))) with
  | .ok (i, _) => some i
  | .error _ => none

/-! ### The encoder -/

/-- The opcode of a command (30_encoding.md R56). -/
def Instr.opcode : Instr → BitVec 8
  | .nop => 0x00#8
  | .mul16 => 0x10#8
  | .mul24 => 0x11#8
  | .mul15 => 0x12#8
  | .satu _ => 0x13#8
  | .sats _ => 0x14#8
  | .abs => 0x15#8
  | .bwr8 _ => 0x20#8
  | .brd8 _ => 0x21#8
  | .bwr32 _ => 0x22#8
  | .brd32 _ => 0x23#8
  | .bwr256 _ => 0x24#8
  | .brd256 _ => 0x25#8
  | .lerp16 => 0x30#8
  | .lerp15 => 0x31#8
  | .bilerp16 => 0x32#8
  | .bilerp15 => 0x33#8
  | .pdlerpRaw => 0x34#8
  | .pdlerpSgn => 0x35#8
  | .pdbilerpRaw => 0x36#8
  | .pdbilerpSgn => 0x37#8
  | .qevalRaw _ => 0x40#8
  | .qevalSgn _ => 0x41#8
  | .qevaliRaw _ => 0x42#8
  | .qevaliSgn _ => 0x43#8
  | .osetf _ => 0x50#8
  | .osetm _ => 0x51#8
  | .opm _ => 0x52#8
  | .ostep _ _ _ => 0x53#8
  | .ostepfm _ _ _ => 0x54#8
  | .obeat _ _ _ => 0x55#8
  | .orst _ => 0x56#8
  | .ord _ _ => 0x57#8
  | .fold16 => 0x60#8
  | .fold25 => 0x61#8
  | .wrap16 => 0x62#8

/-- The number of a sample source (30_encoding.md R53). -/
def Source.number : Source → Word
  | .sine => 0#32
  | .spline => 1#32

/-- The number of an oscillator field (30_encoding.md R54). -/
def OscField.number : OscField → Word
  | .frequency => 0#32
  | .phase => 1#32
  | .phaseModulation => 2#32
  | .lastPhaseModulation => 3#32
  | .morph => 4#32

/-- The field bits of a step command: `id << 8 | src << 16 | fam << 20` (30_encoding.md R60). -/
def stepFields (id : BitVec 8) (src : Source) (fam : BitVec 4) : Word :=
  (id.setWidth 32 <<< 8) ||| (src.number <<< 16) ||| (fam.setWidth 32 <<< 20)

/-- Bits 31:8 of a command word (30_encoding.md R49 to R54, R60). -/
def Instr.fields : Instr → Word
  | .nop | .mul16 | .mul24 | .mul15 | .abs => 0#32
  | .satu n | .sats n => n.setWidth 32 <<< 8
  | .bwr8 id | .brd8 id | .bwr32 id | .brd32 id | .bwr256 id | .brd256 id => id.setWidth 32 <<< 8
  | .lerp16 | .lerp15 | .bilerp16 | .bilerp15 => 0#32
  | .pdlerpRaw | .pdlerpSgn | .pdbilerpRaw | .pdbilerpSgn => 0#32
  | .qevalRaw fam | .qevalSgn fam | .qevaliRaw fam | .qevaliSgn fam => fam.setWidth 32 <<< 8
  | .osetf id | .osetm id | .opm id | .orst id => id.setWidth 32 <<< 8
  | .ostep id src fam | .ostepfm id src fam | .obeat id src fam => stepFields id src fam
  | .ord id sel => (id.setWidth 32 <<< 8) ||| (sel.number <<< 16)
  | .fold16 | .fold25 | .wrap16 => 0#32

/-- The command word of a command (30_encoding.md R60). -/
def encode (i : Instr) : Word := i.opcode.setWidth 32 ||| i.fields

end Sys2Proof
end

