-- ==== Sys2Proof/Machine/Ops.lean ====
section
/-!
DEFINITION. The named operations over the state: result registers, instance lookup, buffer storage, the ROM reads, and
taking a fault as one shared operation (60_exceptions.md R133).
-/

namespace Sys2Proof
namespace Machine

/-! ### Faults (R131 to R135) -/

/-- The CAUSE code of a fault (60_exceptions.md R131). -/
def Cause.code : Cause → BitVec 3
  | .illegal => 1#3
  | .badInstance => 2#3
  | .tableRange => 3#3

/-- STATUS.FAULT, bit 0 (10_state.md R19). While it is 1 the block is halted (60_exceptions.md R135). -/
def State.faulted (s : State) : Bool := s.status.getLsbD 0

/-- STATUS.CAUSE, bits 3:1 (10_state.md R19). -/
def State.cause (s : State) : BitVec 3 := s.status.extractLsb' 1 3

/-- STATUS with FAULT set and CAUSE written, its other bits as they were (60_exceptions.md R133). -/
def faultStatus (status : Word) (cause : Cause) : Word :=
  (status &&& 0xFFFFFFF0#32) ||| (cause.code.setWidth 32 <<< 1) ||| 1#32

/-- Taking a fault during the command with word `c` (60_exceptions.md R133): only while STATUS.FAULT = 0, FAULT and CAUSE
are written and FCMD takes the word. There is no return from it (R136). -/
def State.raise (s : State) (cause : Cause) (c : Word) : State :=
  if s.faulted then s else { s with status := faultStatus s.status cause, fcmd := c }

/-- The end of a command with word `c` issued in `s`: all its effect, or a fault and none of it (60_exceptions.md
R134). -/
def complete (c : Word) (s : State) (effect : Except Cause State) : Outcome :=
  .next (match effect with
    | .ok t => t
    | .error cause => s.raise cause c)

/-! ### Result registers (10_state.md R14) -/

/-- `RES0 <- v`. -/
def State.setRes0 (s : State) (v : Word) : State := { s with res0 := v }

/-- `RES0 <- v; RES1 <- w`. -/
def State.setResults (s : State) (v w : Word) : State := { s with res0 := v, res1 := w }

/-! ### Instances (30_encoding.md R51, 60_exceptions.md R131) -/

/-- The instance number `id` of a list of instances, or BAD_INSTANCE when `id` is at or above their count. -/
def instanceAt {α : Type} (xs : List α) (id : BitVec 8) : Except Cause α :=
  match xs[id.toNat]? with
  | some x => .ok x
  | none => .error .badInstance

/-- `buf8[id] <- b`. -/
def State.setBuf8 (s : State) (id : BitVec 8) (b : Buf 8) : State := { s with buf8 := s.buf8.set id.toNat b }

/-- `buf32[id] <- b`. -/
def State.setBuf32 (s : State) (id : BitVec 8) (b : Buf 32) : State := { s with buf32 := s.buf32.set id.toNat b }

/-- `buf256[id] <- b`. -/
def State.setBuf256 (s : State) (id : BitVec 8) (b : Buf 256) : State :=
  { s with buf256 := s.buf256.set id.toNat b }

/-- `osc[id] <- o`. -/
def State.setOsc (s : State) (id : BitVec 8) (o : Osc) : State := { s with osc := s.osc.set id.toNat o }

/-! ### Buffer storage (42_buffer.md R76, R77) -/

/-- The slot of a buffer of depth `d` that a 32-bit position names: the position modulo `d`. -/
def slot (d : Nat) [NeZero d] (position : Word) : Fin d := Fin.ofNat d position.toNat

/-- `BufWrite(B, v)`: store at the cursor, then advance it (42_buffer.md R76). -/
def Buf.write {d : Nat} [NeZero d] (b : Buf d) (v : Word) : Buf d :=
  { data := b.data.set (slot d b.cursor).val v (slot d b.cursor).isLt, cursor := b.cursor + 1#32 }

/-- `BufRead(B, k)`: the word at the cursor plus the bitwise inverse of the offset (42_buffer.md R77; 90_conflicts.md
C2). -/
def Buf.read {d : Nat} [NeZero d] (b : Buf d) (k : Word) : Word := b.data[slot d (b.cursor + ~~~k)]

/-! ### ROM reads (20_memory.md R38, R40) -/

/-- `WTRead(f, j, i)` (20_memory.md R38): callers check the bounds first. -/
def wtRead (p : Config.Params) (fam : BitVec 4) (j i : Nat) : Word := p.wt fam j i

/-- `SineRead(i)` (20_memory.md R40). -/
def sineRead (p : Config.Params) (i : BitVec 12) : Word := p.sine i

end Machine
end Sys2Proof
end

