-- ==== Sys2Proof/Machine/Operands.lean ====
section
/-!
DEFINITION. The operand registers OPA to OPF and the numbered register names `x[0]` to `x[7]` (10_state.md R13, R14,
R29; 00_scope.md R9). A command reads its operands straight from the fields of the state, once, at its start (R13).
-/

namespace Sys2Proof
namespace Machine

/-- `x[k]`: OPA to OPF are `x[0]` to `x[5]`, RES0 and RES1 are `x[6]` and `x[7]` (00_scope.md R9). -/
def State.x (s : State) (k : Fin 8) : Word :=
  match k with
  | 0 => s.opa
  | 1 => s.opb
  | 2 => s.opc
  | 3 => s.opd
  | 4 => s.ope
  | 5 => s.opf
  | 6 => s.res0
  | 7 => s.res1

/-- The saturation width of format S: `bits = zext_5(n) + 1` (30_encoding.md R50). -/
def saturationWidth (n : BitVec 5) : Nat := n.toNat + 1

end Machine
end Sys2Proof
end

