-- ==== Sys2Proof/Machine/Arith.lean ====
section
/-!
DEFINITION. Saturating fixed-point arithmetic (41_arith.md R70 to R75). None of these commands can fault after decoding.
-/

namespace Sys2Proof
namespace Machine

/-- MUL16 (41_arith.md R70). -/
def execMul16 (s : State) : Outcome := .next (s.setRes0 (mul s.opa s.opb 16))

/-- MUL24 (41_arith.md R71). -/
def execMul24 (s : State) : Outcome := .next (s.setRes0 (mul s.opa s.opb 24))

/-- MUL15: the "15.16" format, truncated at bit 15 (41_arith.md R66, R72). -/
def execMul15 (s : State) : Outcome := .next (s.setRes0 (mul s.opa s.opb 15))

/-- SATU (41_arith.md R73). -/
def execSatu (n : BitVec 5) (s : State) : Outcome := .next (s.setRes0 (satU s.opa (saturationWidth n)))

/-- SATS (41_arith.md R74). -/
def execSats (n : BitVec 5) (s : State) : Outcome := .next (s.setRes0 (satS s.opa (saturationWidth n)))

/-- ABS (41_arith.md R75). -/
def execAbs (s : State) : Outcome := .next (s.setRes0 (absw s.opa))

end Machine
end Sys2Proof
end

