-- ==== Sys2Proof/Machine/Buffer.lean ====
section
/-!
DEFINITION. Circular sample buffers (42_buffer.md R78 to R83): each command checks its instance, then writes or reads
that instance alone.
-/

namespace Sys2Proof
namespace Machine

/-- BWR8 (42_buffer.md R78). -/
def execBwr8 (id : BitVec 8) (s : State) : Outcome :=
  complete (encode (.bwr8 id)) s ((instanceAt s.buf8 id).map fun b => s.setBuf8 id (b.write s.opa))

/-- BRD8 (42_buffer.md R79). -/
def execBrd8 (id : BitVec 8) (s : State) : Outcome :=
  complete (encode (.brd8 id)) s ((instanceAt s.buf8 id).map fun b => s.setRes0 (b.read s.opa))

/-- BWR32 (42_buffer.md R80). -/
def execBwr32 (id : BitVec 8) (s : State) : Outcome :=
  complete (encode (.bwr32 id)) s ((instanceAt s.buf32 id).map fun b => s.setBuf32 id (b.write s.opa))

/-- BRD32 (42_buffer.md R81). -/
def execBrd32 (id : BitVec 8) (s : State) : Outcome :=
  complete (encode (.brd32 id)) s ((instanceAt s.buf32 id).map fun b => s.setRes0 (b.read s.opa))

/-- BWR256 (42_buffer.md R82). -/
def execBwr256 (id : BitVec 8) (s : State) : Outcome :=
  complete (encode (.bwr256 id)) s ((instanceAt s.buf256 id).map fun b => s.setBuf256 id (b.write s.opa))

/-- BRD256 (42_buffer.md R83). -/
def execBrd256 (id : BitVec 8) (s : State) : Outcome :=
  complete (encode (.brd256 id)) s ((instanceAt s.buf256 id).map fun b => s.setRes0 (b.read s.opa))

end Machine
end Sys2Proof
end

