-- ==== Sys2Proof/Machine/Fold.lean ====
section
/-!
DEFINITION. Signal fold and wrap operators (46_fold.md R124 to R126). None of these commands can fault after decoding.
-/

namespace Sys2Proof
namespace Machine

/-- `fold16(x)`: bit 16 selects the mirrored low 16 bits (46_fold.md R124). -/
def fold16 (x : Word) : Word :=
  if x.getLsbD 16 then (65535#16 - x.extractLsb' 0 16).setWidth 32 else (x.extractLsb' 0 16).setWidth 32

/-- `fold25(x)`: bit 25 selects the mirrored low 25 bits (46_fold.md R125). -/
def fold25 (x : Word) : Word :=
  if x.getLsbD 25 then (0x1FFFFFF#25 - x.extractLsb' 0 25).setWidth 32 else (x.extractLsb' 0 25).setWidth 32

/-- `wrap16(x)`: the low 16 bits (46_fold.md R126). -/
def wrap16 (x : Word) : Word := (x.extractLsb' 0 16).setWidth 32

/-- FOLD16 (46_fold.md R124). -/
def execFold16 (s : State) : Outcome := .next (s.setRes0 (fold16 s.opa))

/-- FOLD25 (46_fold.md R125). -/
def execFold25 (s : State) : Outcome := .next (s.setRes0 (fold25 s.opa))

/-- WRAP16 (46_fold.md R126). -/
def execWrap16 (s : State) : Outcome := .next (s.setRes0 (wrap16 s.opa))

end Machine
end Sys2Proof
end

