-- ==== Sys2Proof/Machine/Flags.lean ====
section
/-!
DEFINITION. The block has no arithmetic flags (10_state.md R18); the only sign output is the delta form a command writes
to RES1 (43_interp.md R88).
-/

namespace Sys2Proof
namespace Machine

/-- `sgn(d)`: 1 for a negative difference, 0 otherwise (43_interp.md R88). -/
def sgn (d : Word) : Word := if d.toInt < 0 then 1#32 else 0#32

/-- A difference in the raw or the sign form (43_interp.md R88). -/
def deltaOut (form : DeltaForm) (d : Word) : Word :=
  match form with
  | .raw => d
  | .sgn => sgn d

end Machine
end Sys2Proof
end

