-- ==== Sys2Proof/Machine/Interp.lean ====
section
/-!
DEFINITION. The interpolation datapath (43_interp.md R89 to R96). None of these commands can fault after decoding.
-/

namespace Sys2Proof
namespace Machine

/-- LERP16 (43_interp.md R89). -/
def execLerp16 (s : State) : Outcome := .next (s.setRes0 (lerpF s.opa s.opb s.opc 16))

/-- LERP15 (43_interp.md R90). -/
def execLerp15 (s : State) : Outcome := .next (s.setRes0 (lerpF s.opa s.opb s.opc 15))

/-- The two-stage interpolation of 43_interp.md R91: a to b and c to d by frac0, then between the two by frac1. -/
def bilerp (a b c d frac0 frac1 : Word) (fracBits : Nat) : Word :=
  lerpF (lerpF a b frac0 fracBits) (lerpF c d frac0 fracBits) frac1 fracBits

/-- BILERP16 (43_interp.md R91). -/
def execBilerp16 (s : State) : Outcome := .next (s.setRes0 (bilerp s.opa s.opb s.opc s.opd s.ope s.opf 16))

/-- BILERP15 (43_interp.md R92). -/
def execBilerp15 (s : State) : Outcome := .next (s.setRes0 (bilerp s.opa s.opb s.opc s.opd s.ope s.opf 15))

/-- The pre-differenced lerp with either delta form (43_interp.md R93, R94). -/
def pdlerp (form : DeltaForm) (s : State) : State :=
  s.setResults (pd s.opa s.opb) (deltaOut form (trunc32 (pdDelta s.opa)))

/-- PDLERP_RAW (43_interp.md R93). -/
def execPdlerpRaw (s : State) : Outcome := .next (pdlerp .raw s)

/-- PDLERP_SGN (43_interp.md R94). -/
def execPdlerpSgn (s : State) : Outcome := .next (pdlerp .sgn s)

/-- The pre-differenced bilerp with either delta form: the delta is the difference of the two first-stage results
(43_interp.md R95, R96). -/
def pdbilerp (form : DeltaForm) (s : State) : State :=
  let s0 := pd s.opa s.opc
  let s1 := pd s.opb s.opc
  s.setResults (lerpF s0 s1 s.opd 16) (deltaOut form (s1 - s0))

/-- PDBILERP_RAW (43_interp.md R95). -/
def execPdbilerpRaw (s : State) : Outcome := .next (pdbilerp .raw s)

/-- PDBILERP_SGN (43_interp.md R96). -/
def execPdbilerpSgn (s : State) : Outcome := .next (pdbilerp .sgn s)

end Machine
end Sys2Proof
end

