-- ==== Sys2Proof/Machine/Spline.lean ====
section
/-!
DEFINITION. The quintic-spline wavetable evaluator (44_spline.md R97 to R110).
-/

namespace Sys2Proof
namespace Machine

/-! ### The kernel (R102) -/

/-- `v` moved, if need be, to within `tol` of `centre`. -/
def clampNear (centre : Int) (tol : Nat) (v : Int) : Int := max (centre - tol) (min v (centre + tol))

/-- The six samples are a linear ramp `m_k = a + k·s` (44_spline.md R102, Q3). -/
def isRamp (m : Config.Samples) : Bool :=
  let step := m.m1.toInt - m.m0.toInt
  decide (m.m2.toInt - m.m1.toInt = step) && decide (m.m3.toInt - m.m2.toInt = step) &&
    decide (m.m4.toInt - m.m3.toInt = step) && decide (m.m5.toInt - m.m4.toInt = step)

/-- `P_QUINTIC(m_0, …, m_5, t)` (44_spline.md R102): the OPEN kernel with the named properties Q1 (node), Q2 (continuity,
where Q1 makes the next cell's value m_3) and Q3 (ramp midpoint) imposed, and nothing else known of it (log entry 3). -/
def quintic (p : Config.Params) (m : Config.Samples) (t : BitVec 16) : Word :=
  if t = 0#16 then m.m2
  else if t = 0x8000#16 ∧ isRamp m = true then
    trunc32 (clampNear ((m.m2.toInt + m.m3.toInt) / 2) p.midTol (p.kernel m t).toInt)
  else if t = 0xFFFF#16 ∧ p.smooth m = true then
    trunc32 (clampNear m.m3.toInt p.contTol (p.kernel m t).toInt)
  else p.kernel m t

/-! ### The evaluator (R97 to R106) -/

/-- `phase[31:16]`: the padded position of the first of the six samples (44_spline.md R98). -/
def leftIndex (phase : Word) : Nat := (phase.extractLsb' 16 16).toNat

/-- `phase[15:0]`: the phase fraction (44_spline.md R98). -/
def phaseFraction (phase : Word) : BitVec 16 := phase.extractLsb' 0 16

/-- `morph[31:16]`: the left table (44_spline.md R99). -/
def leftTable (morph : Word) : Nat := (morph.extractLsb' 16 16).toNat

/-- `morph[15:0]`, zero-extended to a word: the morph fraction (44_spline.md R99). -/
def morphFraction (morph : Word) : Word := (morph.extractLsb' 0 16).setWidth 32

/-- `m_k`: the sample at position `i` of table `j`, morphed toward the next table (44_spline.md R101). -/
def morphedSample (p : Config.Params) (fam : BitVec 4) (j i : Nat) (u : Word) : Word := pd (wtRead p fam j i) u

/-- The six morphed samples of a window (44_spline.md R101). -/
def morphedWindow (p : Config.Params) (fam : BitVec 4) (j i : Nat) (u : Word) : Config.Samples :=
  { m0 := morphedSample p fam j i u
    m1 := morphedSample p fam j (i + 1) u
    m2 := morphedSample p fam j (i + 2) u
    m3 := morphedSample p fam j (i + 3) u
    m4 := morphedSample p fam j (i + 4) u
    m5 := morphedSample p fam j (i + 5) u }

/-- The window an evaluation at `phase` and `morph` reads (44_spline.md R98, R99, R101). -/
def splineWindow (p : Config.Params) (fam : BitVec 4) (phase morph : Word) : Config.Samples :=
  morphedWindow p fam (leftTable morph) (leftIndex phase) (morphFraction morph)

/-- The indices stay inside the family's tables (44_spline.md R100). -/
def inRange (p : Config.Params) (fam : BitVec 4) (phase morph : Word) : Bool :=
  decide (leftIndex phase ≤ p.tableLength fam - 6) && decide (leftTable morph ≤ p.numTables fam - 1)

/-- The sample `y` of a window at fraction `t`: the kernel's value saturated, blended by `io` when it is given
(44_spline.md R97, R104, R106). -/
def splineSample (p : Config.Params) (m : Config.Samples) (t : BitVec 16) (io : Option Word) : Word :=
  let q := satS (quintic p m t) Config.splineSatBits
  match io with
  | none => q
  | some io => satS (lerpF q m.m2 io 16) Config.splineSatBits

/-- `SplineEval` (44_spline.md R97): the sample and the delta, or the fault, raised before any ROM read. `io = none` is
`useIO = false`. -/
def splineEval (p : Config.Params) (fam : BitVec 4) (phase morph : Word) (io : Option Word) (form : DeltaForm) :
    Except Cause (Word × Word) :=
  if p.numFam ≤ fam.toNat then .error .badInstance
  else if inRange p fam phase morph = false then .error .tableRange
  else
    let m := splineWindow p fam phase morph
    .ok (splineSample p m (phaseFraction phase) io, deltaOut form (m.m3 - m.m2))

/-- A spline command with word `c`: both results, or a fault (44_spline.md R97). -/
def splineCommand (p : Config.Params) (c : Word) (fam : BitVec 4) (io : Option Word) (form : DeltaForm) (s : State) :
    Outcome :=
  complete c s ((splineEval p fam s.opa s.opb io form).map fun r => s.setResults r.1 r.2)

/-- QEVAL_RAW (44_spline.md R107). -/
def execQevalRaw (fam : BitVec 4) (s : State) : Outcome :=
  splineCommand Config.params (encode (.qevalRaw fam)) fam none .raw s

/-- QEVAL_SGN (44_spline.md R108). -/
def execQevalSgn (fam : BitVec 4) (s : State) : Outcome :=
  splineCommand Config.params (encode (.qevalSgn fam)) fam none .sgn s

/-- QEVALI_RAW (44_spline.md R109). -/
def execQevaliRaw (fam : BitVec 4) (s : State) : Outcome :=
  splineCommand Config.params (encode (.qevaliRaw fam)) fam (some s.opc) .raw s

/-- QEVALI_SGN (44_spline.md R110). -/
def execQevaliSgn (fam : BitVec 4) (s : State) : Outcome :=
  splineCommand Config.params (encode (.qevaliSgn fam)) fam (some s.opc) .sgn s

end Machine
end Sys2Proof
end

