-- ==== Sys2Proof/Machine/Oscillator.lean ====
section
/-!
DEFINITION. The phase oscillator (45_osc.md R112 to R123). Every command checks its instance before any write, and a step
writes only after its sample is known (R121).
-/

namespace Sys2Proof
namespace Machine

/-! ### State-setting and read-back (R113 to R117) -/

/-- OSETF (45_osc.md R113). -/
def execOsetf (id : BitVec 8) (s : State) : Outcome :=
  complete (encode (.osetf id)) s ((instanceAt s.osc id).map fun o => s.setOsc id { o with frequency := s.opa })

/-- OSETM (45_osc.md R114). -/
def execOsetm (id : BitVec 8) (s : State) : Outcome :=
  complete (encode (.osetm id)) s ((instanceAt s.osc id).map fun o => s.setOsc id { o with morph := s.opa })

/-- `updatePhaseModulation(pmInput)` on the oscillator's fields (45_osc.md R115). -/
def Osc.modulate (o : Osc) (pmInput : Word) : Osc :=
  { o with phaseModulation := pmInput - o.lastPhaseModulation, lastPhaseModulation := pmInput }

/-- OPM (45_osc.md R115). -/
def execOpm (id : BitVec 8) (s : State) : Outcome :=
  complete (encode (.opm id)) s ((instanceAt s.osc id).map fun o => s.setOsc id (o.modulate s.opa))

/-- ORST (45_osc.md R116). -/
def execOrst (id : BitVec 8) (s : State) : Outcome :=
  complete (encode (.orst id)) s ((instanceAt s.osc id).map fun o => s.setOsc id { o with phase := 0#32 })

/-- The field a selector names (30_encoding.md R54, 45_osc.md R117). -/
def Osc.field (o : Osc) (sel : OscField) : Word :=
  match sel with
  | .frequency => o.frequency
  | .phase => o.phase
  | .phaseModulation => o.phaseModulation
  | .lastPhaseModulation => o.lastPhaseModulation
  | .morph => o.morph

/-- ORD (45_osc.md R117). -/
def execOrd (id : BitVec 8) (sel : OscField) (s : State) : Outcome :=
  complete (encode (.ord id sel)) s ((instanceAt s.osc id).map fun o => s.setRes0 (o.field sel))

/-! ### The sample source (R118 to R120) -/

/-- The sine table index, `phase[31:20]` (45_osc.md R119). -/
def sineIndex (phase : Word) : BitVec 12 := phase.extractLsb' 20 12

/-- The sine-path fraction `(phase >>u SINE_FRAC_LSB)[15:0]`, zero-extended (45_osc.md R119). -/
def sineFraction (p : Config.Params) (phase : Word) : Word :=
  ((phase >>> p.sineFracLsb.val).extractLsb' 0 16).setWidth 32

/-- The sine path (45_osc.md R119): the index after the last wraps to 0. -/
def sineSample (p : Config.Params) (phase : Word) : Word :=
  lerpF (sineRead p (sineIndex phase)) (sineRead p (sineIndex phase + 1#12)) (sineFraction p phase) 16

/-- The spline path: the evaluator at the shifted phase and the oscillator's morph, keeping only the sample (45_osc.md
R120). -/
def splinePath (p : Config.Params) (fam : BitVec 4) (phase morph : Word) : Except Cause Word :=
  (splineEval p fam (phase >>> (p.phaseShift fam).val) morph none .raw).map Prod.fst

/-- `OscEval`: the sample at the new phase (45_osc.md R118). -/
def oscEval (p : Config.Params) (src : Source) (fam : BitVec 4) (phase morph : Word) : Except Cause Word :=
  match src with
  | .sine => .ok (sineSample p phase)
  | .spline => splinePath p fam phase morph

/-- The default of PHASE_SHIFT_f: `16 − c` when `L_f − 5 = 2^c` with c ≤ 16, else none (45_osc.md R120). It is a default,
not a constraint: the parameter stands. -/
def defaultPhaseShift (tableLength : Nat) : Option Nat :=
  ((List.range 17).find? fun c => tableLength - 5 == 2 ^ c).map fun c => 16 - c

/-! ### Step commands (R121 to R123) -/

/-- A step command with word `c` that moves the phase to `newPhase` (45_osc.md R121): the sample at the new phase, then
phase, RES0 and RES1 are written, or a fault and nothing is. -/
def oscStep (p : Config.Params) (c : Word) (id : BitVec 8) (src : Source) (fam : BitVec 4) (newPhase : Osc → Word)
    (s : State) : Outcome :=
  complete c s (do
    let o ← instanceAt s.osc id
    let y ← oscEval p src fam (newPhase o) o.morph
    .ok ((s.setOsc id { o with phase := newPhase o }).setResults y (newPhase o)))

/-- `p'` of OSTEP (45_osc.md R121). -/
def Osc.advance (o : Osc) : Word := o.phase + o.frequency + o.phaseModulation

/-- `p'` of OSTEPFM (45_osc.md R122). -/
def Osc.advanceFM (o : Osc) (multiplier : Word) : Word :=
  o.phase + mul o.frequency multiplier Config.fmFracBits + o.phaseModulation

/-- `p'` of OBEAT (45_osc.md R123). -/
def Osc.beat (o : Osc) (index : Word) : Word := index * o.frequency

/-- OSTEP (45_osc.md R121). -/
def execOstep (id : BitVec 8) (src : Source) (fam : BitVec 4) (s : State) : Outcome :=
  oscStep Config.params (encode (.ostep id src fam)) id src fam (fun o => o.advance) s

/-- OSTEPFM (45_osc.md R122). -/
def execOstepfm (id : BitVec 8) (src : Source) (fam : BitVec 4) (s : State) : Outcome :=
  oscStep Config.params (encode (.ostepfm id src fam)) id src fam (fun o => o.advanceFM s.opa) s

/-- OBEAT (45_osc.md R123). -/
def execObeat (id : BitVec 8) (src : Source) (fam : BitVec 4) (s : State) : Outcome :=
  oscStep Config.params (encode (.obeat id src fam)) id src fam (fun o => o.beat s.opa) s

end Machine
end Sys2Proof
end

