-- ==== Sys2Proof/Machine/System.lean ====
section
/-!
DEFINITION. The one system command (47_system.md R129).
-/

namespace Sys2Proof
namespace Machine

/-- NOP (47_system.md R129): no state changes. -/
def execNop (s : State) : Outcome := .next s

end Machine
end Sys2Proof
end

