-- ==== Sys2Proof/Machine/Dispatch.lean ====
section
/-!
DEFINITION. The dispatch: one arm per command of the opcode map (30_encoding.md R56), one direct call of its meaning.
-/

namespace Sys2Proof
namespace Machine

def exec (i : Instr) (s : State) : Host.Outcome State Fault Refusal :=
  match i with
  | .nop => Sys2Proof.Machine.execNop s
  | .mul16 => Sys2Proof.Machine.execMul16 s
  | .mul24 => Sys2Proof.Machine.execMul24 s
  | .mul15 => Sys2Proof.Machine.execMul15 s
  | .satu n => Sys2Proof.Machine.execSatu n s
  | .sats n => Sys2Proof.Machine.execSats n s
  | .abs => Sys2Proof.Machine.execAbs s
  | .bwr8 id => Sys2Proof.Machine.execBwr8 id s
  | .brd8 id => Sys2Proof.Machine.execBrd8 id s
  | .bwr32 id => Sys2Proof.Machine.execBwr32 id s
  | .brd32 id => Sys2Proof.Machine.execBrd32 id s
  | .bwr256 id => Sys2Proof.Machine.execBwr256 id s
  | .brd256 id => Sys2Proof.Machine.execBrd256 id s
  | .lerp16 => Sys2Proof.Machine.execLerp16 s
  | .lerp15 => Sys2Proof.Machine.execLerp15 s
  | .bilerp16 => Sys2Proof.Machine.execBilerp16 s
  | .bilerp15 => Sys2Proof.Machine.execBilerp15 s
  | .pdlerpRaw => Sys2Proof.Machine.execPdlerpRaw s
  | .pdlerpSgn => Sys2Proof.Machine.execPdlerpSgn s
  | .pdbilerpRaw => Sys2Proof.Machine.execPdbilerpRaw s
  | .pdbilerpSgn => Sys2Proof.Machine.execPdbilerpSgn s
  | .qevalRaw fam => Sys2Proof.Machine.execQevalRaw fam s
  | .qevalSgn fam => Sys2Proof.Machine.execQevalSgn fam s
  | .qevaliRaw fam => Sys2Proof.Machine.execQevaliRaw fam s
  | .qevaliSgn fam => Sys2Proof.Machine.execQevaliSgn fam s
  | .osetf id => Sys2Proof.Machine.execOsetf id s
  | .osetm id => Sys2Proof.Machine.execOsetm id s
  | .opm id => Sys2Proof.Machine.execOpm id s
  | .ostep id src fam => Sys2Proof.Machine.execOstep id src fam s
  | .ostepfm id src fam => Sys2Proof.Machine.execOstepfm id src fam s
  | .obeat id src fam => Sys2Proof.Machine.execObeat id src fam s
  | .orst id => Sys2Proof.Machine.execOrst id s
  | .ord id sel => Sys2Proof.Machine.execOrd id sel s
  | .fold16 => Sys2Proof.Machine.execFold16 s
  | .fold25 => Sys2Proof.Machine.execFold25 s
  | .wrap16 => Sys2Proof.Machine.execWrap16 s

end Machine
end Sys2Proof
end

