-- ==== Sys2Proof/Machine/HostPort.lean ====
section
/-!
DEFINITION. The host register space (20_memory.md R42, R43): which offsets are registers, what a read gives, what a write
stores. A write to CMD issues a command and is in Issue.lean.
-/

namespace Sys2Proof
namespace Machine

/-- The register at an offset from P_BASE (20_memory.md R43); any other offset is not admitted (R42). -/
def HostReg.ofOffset (offset : Nat) : Option HostReg :=
  match offset with
  | 0x00 => some .cmd
  | 0x04 => some .opa
  | 0x08 => some .opb
  | 0x0C => some .opc
  | 0x10 => some .opd
  | 0x14 => some .ope
  | 0x18 => some .opf
  | 0x1C => some .res0
  | 0x20 => some .res1
  | 0x24 => some .status
  | 0x28 => some .fcmd
  | 0x2C => some .reserved
  | _ => none

/-- The offset of a register from P_BASE (20_memory.md R43). -/
def HostReg.offset : HostReg → Nat
  | .cmd => 0x00
  | .opa => 0x04
  | .opb => 0x08
  | .opc => 0x0C
  | .opd => 0x10
  | .ope => 0x14
  | .opf => 0x18
  | .res0 => 0x1C
  | .res1 => 0x20
  | .status => 0x24
  | .fcmd => 0x28
  | .reserved => 0x2C

/-- The register a host access names, or the refusal of an access that is not admitted (20_memory.md R42). -/
def admitted (offset bytes : Nat) : Except Refusal HostReg :=
  if bytes ≠ 4 then .error (.accessWidth bytes)
  else
    match HostReg.ofOffset offset with
    | some r => .ok r
    | none => .error (.accessOffset offset)

/-- The offset of a host bus address inside the register window, or none below it (20_memory.md R43: the registers stand
at `P_BASE + offset`). -/
def windowOffset (p : Config.Params) (address : Nat) : Option Nat :=
  if p.pBase ≤ address then some (address - p.pBase) else none

/-- The host's `MemRead(address, n)` as an access (20_memory.md R43). -/
def memRead (p : Config.Params) (address n : Nat) : Option Access :=
  (windowOffset p address).map fun offset => .read offset n

/-- The host's `MemWrite(address, n, v)` as an access (20_memory.md R43). -/
def memWrite (p : Config.Params) (address n : Nat) (v : Word) : Option Access :=
  (windowOffset p address).map fun offset => .write offset n v

/-- What a host read gives (10_state.md R28, 20_memory.md R43): CMD and the reserved word read 0, and so do the reserved
bits of STATUS (10_state.md R19). -/
def State.readHost (s : State) (r : HostReg) : Word :=
  match r with
  | .cmd => 0#32
  | .opa => s.opa
  | .opb => s.opb
  | .opc => s.opc
  | .opd => s.opd
  | .ope => s.ope
  | .opf => s.opf
  | .res0 => s.res0
  | .res1 => s.res1
  | .status => s.status &&& 0x0000000F#32
  | .fcmd => s.fcmd
  | .reserved => 0#32

/-- What a host write stores (10_state.md R28, 20_memory.md R43): only the operand registers store; writes to the other
registers are ignored. A write to CMD stores nothing here. -/
def State.writeHost (s : State) (r : HostReg) (v : Word) : State :=
  match r with
  | .opa => { s with opa := v }
  | .opb => { s with opb := v }
  | .opc => { s with opc := v }
  | .opd => { s with opd := v }
  | .ope => { s with ope := v }
  | .opf => { s with opf := v }
  | .cmd | .res0 | .res1 | .status | .fcmd | .reserved => s

/-- The host's plan: the accesses it makes next, in order (70_reset_and_hazards.md R157). -/
def State.withHost (s : State) (accesses : List Access) : State := { s with pending := accesses }

/-- The block answers an access with `v`, or with nothing (60_exceptions.md R143). -/
def State.answer (s : State) (v : Option Word) : State := { s with reply := v }

end Machine
end Sys2Proof
end

