-- ==== Sys2Proof/Machine/Issue.lean ====
section
/-!
DEFINITION. Issuing a command word (10_state.md R16, 30_encoding.md R58, 60_exceptions.md R135) and making one host
access (60_exceptions.md R143).
-/

namespace Sys2Proof
namespace Machine

/-- A host write of `c` to CMD: ignored while the block is halted (60_exceptions.md R135); an illegal word takes the
ILLEGAL fault (30_encoding.md R57); any other word is executed. -/
def issue (c : Word) (s : State) : Outcome :=
  if s.faulted then .next s
  else
    match decode c with
    | .ok i => exec i s
    | .error _ => .next (s.raise .illegal c)

/-- One access of the host (60_exceptions.md R143) in a state whose `pending` no longer holds it. -/
def hostAccess (a : Access) (s : State) : Outcome :=
  match a with
  | .reset => .next { State.reset with pending := s.pending }
  | .read offset bytes =>
    match admitted offset bytes with
    | .ok r => .next (s.answer (some (s.readHost r)))
    | .error refusal => .refused refusal
  | .write offset bytes v =>
    match admitted offset bytes with
    | .ok .cmd => issue v s
    | .ok r => .next (s.writeHost r v)
    | .error refusal => .refused refusal

/-- The host's next access is made; with none left the block holds its state (60_exceptions.md R146). -/
def hostStep (s : State) : Outcome :=
  match s.pending with
  | [] => .next s
  | a :: rest => hostAccess a { s with pending := rest, reply := none }

/-- The access that issues a command word: a 32-bit write to CMD (10_state.md R16). -/
def commandAccess (c : Word) : Access := .write 0 4 c

end Machine
end Sys2Proof
end

