-- ==== Sys2Proof/Machine/Step.lean ====
section
/-!
DEFINITION. One step of the machine: the host's next access, made atomically (70_reset_and_hazards.md R152).
-/

namespace Sys2Proof
namespace Machine

/-- One step (70_reset_and_hazards.md R152, R157). -/
def step (s : State) : Host.Outcome State Fault Refusal := hostStep s

/-- The state with the given instruction as the host's very next access: the block fetches nothing (10_state.md R17), so
placing an instruction is placing the write to CMD that issues it (log entry 4). -/
def State.withFetchWord (s : State) (nbits w : Nat) : State :=
  { s with pending := commandAccess (BitVec.ofNat 32 (w % 2 ^ nbits)) :: s.pending }

end Machine
end Sys2Proof
end

