-- ==== Sys2Proof/Machine/Asm.lean ====
section
/-!
DEFINITION. The operands of the assembly syntax (30_encoding.md R60) and the pseudo-instructions (R61): a line's decimal
operands become a command, or the assembler refuses them.
-/

namespace Sys2Proof
namespace Machine

/-- Format S: a width of 1..32 (30_encoding.md R60). -/
def asmWidth (mk : BitVec 5 → Instr) (bits : Nat) : Option Instr :=
  if 1 ≤ bits ∧ bits ≤ 32 then some (mk (BitVec.ofNat 5 (bits - 1))) else none

/-- Format I: an id of 0..255 (30_encoding.md R60). -/
def asmInstance (mk : BitVec 8 → Instr) (id : Nat) : Option Instr :=
  if id ≤ 255 then some (mk (BitVec.ofNat 8 id)) else none

/-- Format F: a fam of 0..15 (30_encoding.md R60). -/
def asmFamily (mk : BitVec 4 → Instr) (fam : Nat) : Option Instr :=
  if fam ≤ 15 then some (mk (BitVec.ofNat 4 fam)) else none

/-- Format O with the operands `id, sine` (30_encoding.md R60). -/
def asmStepSine (mk : BitVec 8 → Source → BitVec 4 → Instr) (id : Nat) : Option Instr :=
  if id ≤ 255 then some (mk (BitVec.ofNat 8 id) .sine 0#4) else none

/-- Format O with the operands `id, spline, fam` (30_encoding.md R60). -/
def asmStepSpline (mk : BitVec 8 → Source → BitVec 4 → Instr) (id fam : Nat) : Option Instr :=
  if id ≤ 255 ∧ fam ≤ 15 then some (mk (BitVec.ofNat 8 id) .spline (BitVec.ofNat 4 fam)) else none

/-- The field names of ORD (30_encoding.md R60); an unknown name is refused. -/
def asmField (name : String) : Option OscField :=
  if name = "freq" then some .frequency
  else if name = "phase" then some .phase
  else if name = "pm" then some .phaseModulation
  else if name = "lastpm" then some .lastPhaseModulation
  else if name = "morph" then some .morph
  else none

/-- Format R: `ORD id, field` (30_encoding.md R60). -/
def asmRead (id : Nat) (name : String) : Option Instr :=
  if id ≤ 255 then (asmField name).map fun sel => .ord (BitVec.ofNat 8 id) sel else none

/-- The pseudo-instruction SAT15, `SATS 15` (30_encoding.md R61). -/
def asmSat15 : Option Instr := asmWidth .sats 15

/-- The pseudo-instruction DAC12, `SATU 12` (30_encoding.md R61). -/
def asmDac12 : Option Instr := asmWidth .satu 12

/-- The pseudo-instruction `OSTEP id` with no source, `OSTEP id, sine` (30_encoding.md R61). -/
def asmOstep (id : Nat) : Option Instr := asmStepSine .ostep id

end Machine
end Sys2Proof
end

