-- ==== Sys2Proof/Safety.lean ====
section
/-!
DEFINITION. What the claims call a good state and a safe run: the invariant of the machine, and the STRICT machine, which
stops where a register is read that nothing has written since reset (10_state.md R15, 60_exceptions.md R137).
-/

namespace Sys2Proof
namespace Safety

open Machine

/-! ### The columns of the opcode map (30_encoding.md R56) and of the fault table (60_exceptions.md R131) -/

/-- The operand registers a command reads: column "reads" of 30_encoding.md R56. -/
def operandsRead : Instr → List HostReg
  | .nop => []
  | .mul16 | .mul24 | .mul15 => [.opa, .opb]
  | .satu _ | .sats _ | .abs => [.opa]
  | .bwr8 _ | .brd8 _ | .bwr32 _ | .brd32 _ | .bwr256 _ | .brd256 _ => [.opa]
  | .lerp16 | .lerp15 => [.opa, .opb, .opc]
  | .bilerp16 | .bilerp15 => [.opa, .opb, .opc, .opd, .ope, .opf]
  | .pdlerpRaw | .pdlerpSgn => [.opa, .opb]
  | .pdbilerpRaw | .pdbilerpSgn => [.opa, .opb, .opc, .opd]
  | .qevalRaw _ | .qevalSgn _ => [.opa, .opb]
  | .qevaliRaw _ | .qevaliSgn _ => [.opa, .opb, .opc]
  | .osetf _ | .osetm _ | .opm _ => [.opa]
  | .ostep _ _ _ => []
  | .ostepfm _ _ _ | .obeat _ _ _ => [.opa]
  | .orst _ | .ord _ _ => []
  | .fold16 | .fold25 | .wrap16 => [.opa]

/-- The result registers a command writes: column "writes" of 30_encoding.md R56. -/
def resultsWritten : Instr → List HostReg
  | .nop => []
  | .mul16 | .mul24 | .mul15 | .satu _ | .sats _ | .abs => [.res0]
  | .bwr8 _ | .bwr32 _ | .bwr256 _ => []
  | .brd8 _ | .brd32 _ | .brd256 _ => [.res0]
  | .lerp16 | .lerp15 | .bilerp16 | .bilerp15 => [.res0]
  | .pdlerpRaw | .pdlerpSgn | .pdbilerpRaw | .pdbilerpSgn => [.res0, .res1]
  | .qevalRaw _ | .qevalSgn _ | .qevaliRaw _ | .qevaliSgn _ => [.res0, .res1]
  | .osetf _ | .osetm _ | .opm _ | .orst _ => []
  | .ostep _ _ _ | .ostepfm _ _ _ | .obeat _ _ _ => [.res0, .res1]
  | .ord _ _ => [.res0]
  | .fold16 | .fold25 | .wrap16 => [.res0]

/-- Whether family `fam` exists (00_scope.md R6). -/
def familyExists (fam : BitVec 4) : Bool := decide (fam.toNat < Config.params.numFam)

/-- Whether every instance and family the command names exists, so that BAD_INSTANCE is not raised (60_exceptions.md
R131). -/
def instancesExist (i : Instr) (s : State) : Bool :=
  match i with
  | .nop | .mul16 | .mul24 | .mul15 | .satu _ | .sats _ | .abs => true
  | .bwr8 id | .brd8 id => decide (id.toNat < s.buf8.length)
  | .bwr32 id | .brd32 id => decide (id.toNat < s.buf32.length)
  | .bwr256 id | .brd256 id => decide (id.toNat < s.buf256.length)
  | .lerp16 | .lerp15 | .bilerp16 | .bilerp15 => true
  | .pdlerpRaw | .pdlerpSgn | .pdbilerpRaw | .pdbilerpSgn => true
  | .qevalRaw fam | .qevalSgn fam | .qevaliRaw fam | .qevaliSgn fam => familyExists fam
  | .osetf id | .osetm id | .opm id | .orst id | .ord id _ => decide (id.toNat < s.osc.length)
  | .ostep id src fam | .ostepfm id src fam | .obeat id src fam =>
    decide (id.toNat < s.osc.length) && (decide (src = .sine) || familyExists fam)
  | .fold16 | .fold25 | .wrap16 => true

/-- The commands that name an instance or a family: those that can raise BAD_INSTANCE (60_exceptions.md R131). -/
def namesInstance : Instr → Bool
  | .nop | .mul16 | .mul24 | .mul15 | .satu _ | .sats _ | .abs => false
  | .bwr8 _ | .brd8 _ | .bwr32 _ | .brd32 _ | .bwr256 _ | .brd256 _ => true
  | .lerp16 | .lerp15 | .bilerp16 | .bilerp15 => false
  | .pdlerpRaw | .pdlerpSgn | .pdbilerpRaw | .pdbilerpSgn => false
  | .qevalRaw _ | .qevalSgn _ | .qevaliRaw _ | .qevaliSgn _ => true
  | .osetf _ | .osetm _ | .opm _ | .orst _ | .ord _ _ => true
  | .ostep _ _ _ | .ostepfm _ _ _ | .obeat _ _ _ => true
  | .fold16 | .fold25 | .wrap16 => false

/-- The commands that can raise TABLE_RANGE (60_exceptions.md R131). -/
def evaluatesSpline : Instr → Bool
  | .qevalRaw _ | .qevalSgn _ | .qevaliRaw _ | .qevaliSgn _ => true
  | .ostep _ src _ | .ostepfm _ src _ | .obeat _ src _ => decide (src = .spline)
  | .nop | .mul16 | .mul24 | .mul15 | .satu _ | .sats _ | .abs => false
  | .bwr8 _ | .brd8 _ | .bwr32 _ | .brd32 _ | .bwr256 _ | .brd256 _ => false
  | .lerp16 | .lerp15 | .bilerp16 | .bilerp15 => false
  | .pdlerpRaw | .pdlerpSgn | .pdbilerpRaw | .pdbilerpSgn => false
  | .osetf _ | .osetm _ | .opm _ | .orst _ | .ord _ _ => false
  | .fold16 | .fold25 | .wrap16 => false

/-! ### The rules' formulas, in integers

The claims state a result by the formula of its rule, written here over the integers and apart from the definitions of
the machine. -/

/-- The match and mask columns of spec/opcode_table.json, rows NOP to BRD256. -/
def tableColumnsLow : List (Word × Word) :=
  [(0x00000000#32, 0xFFFFFFFF#32), (0x00000010#32, 0xFFFFFFFF#32), (0x00000011#32, 0xFFFFFFFF#32), (0x00000012#32, 0xFFFFFFFF#32),
   (0x00000013#32, 0xFFFFE0FF#32), (0x00000014#32, 0xFFFFE0FF#32), (0x00000015#32, 0xFFFFFFFF#32), (0x00000020#32, 0xFFFF00FF#32),
   (0x00000021#32, 0xFFFF00FF#32), (0x00000022#32, 0xFFFF00FF#32), (0x00000023#32, 0xFFFF00FF#32), (0x00000024#32, 0xFFFF00FF#32),
   (0x00000025#32, 0xFFFF00FF#32)]

/-- The match and mask columns of spec/opcode_table.json, rows LERP16 to WRAP16. -/
def tableColumnsHigh : List (Word × Word) :=
  [(0x00000030#32, 0xFFFFFFFF#32), (0x00000031#32, 0xFFFFFFFF#32), (0x00000032#32, 0xFFFFFFFF#32), (0x00000033#32, 0xFFFFFFFF#32),
   (0x00000034#32, 0xFFFFFFFF#32), (0x00000035#32, 0xFFFFFFFF#32), (0x00000036#32, 0xFFFFFFFF#32), (0x00000037#32, 0xFFFFFFFF#32),
   (0x00000040#32, 0xFFFFF0FF#32), (0x00000041#32, 0xFFFFF0FF#32), (0x00000042#32, 0xFFFFF0FF#32), (0x00000043#32, 0xFFFFF0FF#32),
   (0x00000050#32, 0xFFFF00FF#32), (0x00000051#32, 0xFFFF00FF#32), (0x00000052#32, 0xFFFF00FF#32), (0x00000053#32, 0xFF0E00FF#32),
   (0x00000054#32, 0xFF0E00FF#32), (0x00000055#32, 0xFF0E00FF#32), (0x00000056#32, 0xFFFF00FF#32), (0x00000057#32, 0xFFF800FF#32),
   (0x00000060#32, 0xFFFFFFFF#32), (0x00000061#32, 0xFFFFFFFF#32), (0x00000062#32, 0xFFFFFFFF#32)]

/-- The state after a fault with CAUSE `code` during the command with word `c` (60_exceptions.md R133). -/
def faultEntry (s : State) (code : Nat) (c : Word) : State :=
  { s with status := (s.status &&& 0xFFFFFFF0#32) ||| BitVec.ofNat 32 (2 * code + 1), fcmd := c }

/-- Bits F+31:F of the exact 64-bit product (41_arith.md R64). -/
def productBits (a b : Word) (fracBits : Nat) : Word :=
  (a.signExtend 64 * b.signExtend 64).extractLsb' fracBits 32

/-- `a + floor((b − a)·f / 2^F)`, the difference and the sum modulo 2^32 (43_interp.md R85). -/
def lerpValue (a b f : Word) (fracBits : Nat) : Word :=
  a + BitVec.ofInt 32 ((b - a).toInt * f.toInt / 2 ^ fracBits)

/-- A number below 2^16 read as a signed 16-bit value (00_scope.md R8). -/
def signed16 (n : Nat) : Int := if n < 32768 then (n : Int) else (n : Int) - 65536

/-- `base(w)`, bits 15:0 read signed (43_interp.md R87). -/
def baseValue (w : Word) : Int := signed16 (w.toNat % 65536)

/-- `delta(w)`, bits 31:16 read signed (43_interp.md R87). -/
def deltaValue (w : Word) : Int := signed16 (w.toNat / 65536)

/-- The pre-differenced lerp `base + floor(delta·f / 2^16)` modulo 2^32 (43_interp.md R87). -/
def pdValue (w f : Word) : Word := BitVec.ofInt 32 (baseValue w + deltaValue w * f.toInt / 65536)

/-- The value of `[−m, m]`, `m = 2^(bits−1) − 1`, nearest to `x` (41_arith.md R68). -/
def clampSigned (x : Int) (bits : Nat) : Int := max (-(2 ^ (bits - 1) - 1)) (min x (2 ^ (bits - 1) - 1))

/-- The sample at padded position i + k, morphed from table j toward table j + 1 by u / 2^16 (44_spline.md R98, R99,
R101). -/
def windowSample (p : Config.Params) (fam : BitVec 4) (phase morph : Word) (k : Nat) : Word :=
  let w := p.wt fam (morph.toNat / 65536) (phase.toNat / 65536 + k)
  BitVec.ofInt 32 (baseValue w + deltaValue w * ((morph.toNat % 65536 : Nat) : Int) / 65536)

/-- The six samples m_0 … m_5 of an evaluation (44_spline.md R97). -/
def windowSamples (p : Config.Params) (fam : BitVec 4) (phase morph : Word) : Config.Samples :=
  { m0 := windowSample p fam phase morph 0, m1 := windowSample p fam phase morph 1
    m2 := windowSample p fam phase morph 2, m3 := windowSample p fam phase morph 3
    m4 := windowSample p fam phase morph 4, m5 := windowSample p fam phase morph 5 }

/-- `q`, the saturated kernel value of an evaluation (44_spline.md R97). -/
def quinticResult (p : Config.Params) (fam : BitVec 4) (phase morph : Word) : Word :=
  BitVec.ofInt 32
    (clampSigned (quintic p (windowSamples p fam phase morph) (BitVec.ofNat 16 (phase.toNat % 65536))).toInt 15)

/-- `y` with the blend factor io (44_spline.md R97, R106). -/
def blendedResult (p : Config.Params) (fam : BitVec 4) (phase morph io : Word) : Word :=
  BitVec.ofInt 32
    (clampSigned (lerpValue (quinticResult p fam phase morph) (windowSample p fam phase morph 2) io 16).toInt 15)

/-- `d = m_3 − m_2` (44_spline.md R105). -/
def windowDelta (p : Config.Params) (fam : BitVec 4) (phase morph : Word) : Word :=
  windowSample p fam phase morph 3 - windowSample p fam phase morph 2

/-- The six positions lie in the table and the left table exists: i ≤ L − 6 and j ≤ N − 1 (44_spline.md R100). -/
def windowInTables (p : Config.Params) (fam : BitVec 4) (phase morph : Word) : Bool :=
  decide (phase.toNat / 65536 + 6 ≤ p.tableLength fam) && decide (morph.toNat / 65536 < p.numTables fam)

/-- The sine-path sample at a phase (45_osc.md R119). -/
def sineValue (p : Config.Params) (phase : Word) : Word :=
  let i := phase.toNat / 2 ^ 20
  let frac := phase.toNat / 2 ^ p.sineFracLsb.val % 65536
  lerpValue (p.sine (BitVec.ofNat 12 i)) (p.sine (BitVec.ofNat 12 ((i + 1) % 4096))) (BitVec.ofNat 32 frac) 16

/-- `p'` of a step command on oscillator `o` (45_osc.md R121, R122, R123); any other command leaves the phase. -/
def nextPhase (i : Instr) (o : Osc) (s : State) : Word :=
  match i with
  | .ostep _ _ _ => BitVec.ofNat 32 (o.phase.toNat + o.frequency.toNat + o.phaseModulation.toNat)
  | .ostepfm _ _ _ => o.phase + productBits o.frequency s.opa 16 + o.phaseModulation
  | .obeat _ _ _ => BitVec.ofNat 32 (s.opa.toNat * o.frequency.toNat)
  | _ => o.phase

/-- The spline path's phase operand `p' >>u PHASE_SHIFT` (45_osc.md R120). -/
def splinePhase (p : Config.Params) (fam : BitVec 4) (phase : Word) : Word :=
  BitVec.ofNat 32 (phase.toNat / 2 ^ (p.phaseShift fam).val)

/-- Whether the spline evaluation of a command, if it makes one, stays inside the tables (60_exceptions.md R131,
TABLE_RANGE). -/
def tablesInRange (i : Instr) (s : State) : Bool :=
  match i with
  | .qevalRaw fam | .qevalSgn fam | .qevaliRaw fam | .qevaliSgn fam => windowInTables Config.params fam s.opa s.opb
  | .ostep id .spline fam | .ostepfm id .spline fam | .obeat id .spline fam =>
    match s.osc[id.toNat]? with
    | some o => windowInTables Config.params fam (splinePhase Config.params fam (nextPhase i o s)) o.morph
    | none => true
  | .ostep _ .sine _ | .ostepfm _ .sine _ | .obeat _ .sine _ => true
  | .nop | .mul16 | .mul24 | .mul15 | .satu _ | .sats _ | .abs => true
  | .bwr8 _ | .brd8 _ | .bwr32 _ | .brd32 _ | .bwr256 _ | .brd256 _ => true
  | .lerp16 | .lerp15 | .bilerp16 | .bilerp15 => true
  | .pdlerpRaw | .pdlerpSgn | .pdbilerpRaw | .pdbilerpSgn => true
  | .osetf _ | .osetm _ | .opm _ | .orst _ | .ord _ _ => true
  | .fold16 | .fold25 | .wrap16 => true

/-- The CAUSE code of the first check the command word fails, in the order of 30_encoding.md R58, or none. -/
def firstFailure (c : Word) (s : State) : Option Nat :=
  match decode c with
  | .error _ => some 1
  | .ok i => if instancesExist i s = false then some 2 else if tablesInRange i s = false then some 3 else none

/-- The state with the given register of the host map holding `v`; the other registers of the map have no storage of
their own to set. -/
def poke (s : State) (r : HostReg) (v : Word) : State :=
  match r with
  | .opa => { s with opa := v }
  | .opb => { s with opb := v }
  | .opc => { s with opc := v }
  | .opd => { s with opd := v }
  | .ope => { s with ope := v }
  | .opf => { s with opf := v }
  | .res0 => { s with res0 := v }
  | .res1 => { s with res1 := v }
  | .cmd | .status | .fcmd | .reserved => s

/-! ### The invariant -/

/-- The fault record is one of those 10_state.md R19, R20 and 60_exceptions.md R131 allow: no fault and FCMD = 0, or one
of the three causes with a command word in FCMD that can raise it. -/
def FaultRecord (s : State) : Prop :=
  (s.status = 0#32 ∧ s.fcmd = 0#32) ∨
  (s.status = 3#32 ∧ ∃ e, decode s.fcmd = .error e) ∨
  (s.status = 5#32 ∧ ∃ i, decode s.fcmd = .ok i ∧ namesInstance i = true) ∨
  (s.status = 7#32 ∧ ∃ i, decode s.fcmd = .ok i ∧ evaluatesSpline i = true)

/-- The instance counts are the parameters' (10_state.md R21, R23, R25). -/
def InstanceCounts (s : State) : Prop :=
  s.buf8.length = Config.params.numBuf8 ∧ s.buf32.length = Config.params.numBuf32 ∧
  s.buf256.length = Config.params.numBuf256 ∧ s.osc.length = Config.params.numOsc

/-- The invariant of the machine. -/
def Invariant (s : State) : Prop := FaultRecord s ∧ InstanceCounts s

/-! ### The strict machine (10_state.md R15, 60_exceptions.md R137) -/

/-- A state together with the registers that have been written since reset. -/
structure Tracked where
  state : State
  written : List HostReg
deriving DecidableEq, Repr

/-- The strict machine after reset: OPA to OPF, RES0 and RES1 are unwritten (10_state.md R15). -/
def Tracked.reset : Tracked := { state := State.reset, written := [] }

/-- The eight registers with no reset value (10_state.md R15). -/
def unspecifiedAtReset : List HostReg := [.opa, .opb, .opc, .opd, .ope, .opf, .res0, .res1]

/-- The operand registers a command word makes the block read: none while it is halted, none of an illegal word, none of
a command that raises BAD_INSTANCE before it reads (30_encoding.md R58). -/
def commandReads (c : Word) (s : State) : List HostReg :=
  if s.faulted then []
  else
    match decode c with
    | .ok i => if instancesExist i s then operandsRead i else []
    | .error _ => []

/-- The registers with no reset value that an access reads. -/
def accessReads (a : Access) (s : State) : List HostReg :=
  match a with
  | .reset => []
  | .read offset bytes =>
    match admitted offset bytes with
    | .ok r => if r ∈ unspecifiedAtReset then [r] else []
    | .error _ => []
  | .write offset bytes v =>
    match admitted offset bytes with
    | .ok .cmd => commandReads v s
    | .ok _ => []
    | .error _ => []

/-- The registers written after an access that led to `after`. -/
def writtenAfter (a : Access) (written : List HostReg) (after : State) : List HostReg :=
  match a with
  | .reset => []
  | .read _ _ => written
  | .write offset bytes v =>
    match admitted offset bytes with
    | .ok .cmd =>
      if after.faulted then written
      else
        match decode v with
        | .ok i => resultsWritten i ++ written
        | .error _ => written
    | .ok r => if r ∈ [.res0, .res1] then written else r :: written
    | .error _ => written

/-- One step of the strict machine: the step of the machine, or the model-only fault of 10_state.md R15 when the access
reads a register nothing has written since reset. -/
def strictStep (t : Tracked) : Host.Outcome Tracked Fault Refusal :=
  match t.state.pending with
  | [] => .next t
  | a :: _ =>
    match (accessReads a t.state).find? fun r => decide (r ∉ t.written) with
    | some r => .fault (.unwrittenRegister r)
    | none =>
      match step t.state with
      | .next s => .next { state := s, written := writtenAfter a t.written s }
      | .fault f => .fault f
      | .refused r => .refused r

end Safety
end Sys2Proof
end

