-- ==== Sys2Proof/Certificates/Slice0/Obligations.lean ====
section
/-!
DEFINITION. The statements about the Via DSP core. Each states rules of spec/ over every state and operand; a statement
writes the next state as a record update of the state before, so that every register, buffer, oscillator and access it
does not name is unchanged.
-/

open Sys2Proof
open Sys2Proof.Machine
open Sys2Proof.Safety

/-! ### Encoding (30_encoding.md) -/

/-- Every well-formed command is decoded from its own word (R60, R63). -/
def Obligations.DecodeOfEncodeIsTheCommand : Prop :=
  ∀ i : Instr, i.WellFormed → decode (encode i) = .ok i

/-- Every word the decoder accepts is the word of the command it gives: no two words mean one command (R57, D44). -/
def Obligations.EncodeOfDecodeIsTheWord : Prop :=
  ∀ (c : Word) (i : Instr), decode c = .ok i → i.WellFormed ∧ encode i = c

/-- R63: match and mask, with the side conditions of formats O and R, decide which command a word is, and they are the
columns of the opcode table. -/
def Obligations.MatchAndMaskDecideTheCommand : Prop :=
  (∀ e ∈ opcodeMap, ∀ c : Word,
    (∃ i, decode c = .ok i ∧ i.opcode = e.1) ↔
      (c &&& (0xFF#32 ||| e.2.format.reservedMask) = e.1.setWidth 32 ∧
        (e.2.format = .o → c.getLsbD 16 = false → c.extractLsb' 20 4 = 0#4) ∧
        (e.2.format = .r → (c.extractLsb' 16 3).toNat ≤ 4))) ∧
  opcodeMap.map (fun e => (e.1.setWidth 32, 0xFF#32 ||| e.2.format.reservedMask)) = tableColumnsLow ++ tableColumnsHigh

/-- R57: a word is illegal exactly when its opcode is reserved, a reserved bit is set, or a field value is reserved; and
it raises ILLEGAL. -/
def Obligations.IllegalWordsAndTheirFault : Prop :=
  (∀ c : Word, (∃ e, decode c = .error e) ↔
    ((1 ≤ c.toNat % 256 ∧ c.toNat % 256 ≤ 0x0F) ∨ (0x16 ≤ c.toNat % 256 ∧ c.toNat % 256 ≤ 0x1F) ∨
     (0x26 ≤ c.toNat % 256 ∧ c.toNat % 256 ≤ 0x2F) ∨ (0x38 ≤ c.toNat % 256 ∧ c.toNat % 256 ≤ 0x3F) ∨
     (0x44 ≤ c.toNat % 256 ∧ c.toNat % 256 ≤ 0x4F) ∨ (0x58 ≤ c.toNat % 256 ∧ c.toNat % 256 ≤ 0x5F) ∨
     0x63 ≤ c.toNat % 256) ∨
    (∃ e ∈ opcodeMap, e.1.toNat = c.toNat % 256 ∧ c &&& e.2.format.reservedMask ≠ 0#32) ∨
    (∃ e ∈ opcodeMap, e.1.toNat = c.toNat % 256 ∧ e.2.format = .o ∧ c.toNat / 2 ^ 16 % 2 = 0 ∧
      c.toNat / 2 ^ 20 % 16 ≠ 0) ∨
    (∃ e ∈ opcodeMap, e.1.toNat = c.toNat % 256 ∧ e.2.format = .r ∧ 5 ≤ c.toNat / 2 ^ 16 % 8)) ∧
  (∀ (c : Word) (s : State), s.faulted = false → (∃ e, decode c = .error e) →
    issue c s = .next (faultEntry s 1 c))

/-- Every command is one word: the decoder takes exactly the four bytes of its little-endian image, and a byte image
that is shorter is no command (R47, R62; 20_memory.md R41). -/
def Obligations.ByteImageDecodesAsOneWord : Prop :=
  (∀ (c : Word) (i : Instr) (rest : List Byte), decode c = .ok i → decodeBytes (wordBytes c ++ rest) = .ok (i, rest)) ∧
  (∀ (c : Word) (e : DecodeError) (rest : List Byte), decode c = .error e →
    decodeBytes (wordBytes c ++ rest) = .error e) ∧
  (∀ bytes : List Byte, bytes.length < 4 → decodeBytes bytes = .error .truncated) ∧
  (∀ (c : Word) (k : Nat) (b : Byte), (wordBytes c)[k]? = some b → b.toNat = c.toNat / 2 ^ (8 * k) % 256)

/-- Words written out from R49 to R54, one or more per format, decode to the commands they stand for. -/
def Obligations.WrittenOutWordsDecode : Prop :=
  decode 0x00000000#32 = .ok .nop ∧ decode 0x00000012#32 = .ok .mul15 ∧
  decode 0x00000B13#32 = .ok (.satu 11#5) ∧ decode 0x00001F14#32 = .ok (.sats 31#5) ∧
  decode 0x00000220#32 = .ok (.bwr8 2#8) ∧ decode 0x0000FF25#32 = .ok (.brd256 255#8) ∧
  decode 0x00000037#32 = .ok .pdbilerpSgn ∧ decode 0x00000F42#32 = .ok (.qevaliRaw 15#4) ∧
  decode 0x00000053#32 = .ok (.ostep 0#8 .sine 0#4) ∧ decode 0x00A10754#32 = .ok (.ostepfm 7#8 .spline 10#4) ∧
  decode 0x00040157#32 = .ok (.ord 1#8 .morph) ∧ decode 0x00000061#32 = .ok .fold25 ∧
  decode 0x00100253#32 = .error .familyWithoutSpline ∧ decode 0x00050057#32 = .error .badSelector ∧
  decode 0x01000010#32 = .error .reservedBit ∧ decode 0x00000001#32 = .error .unknownOpcode

/-- R60, R61: the assembler encodes each format's operands as written there, refuses the others, and expands the
pseudo-instructions. -/
def Obligations.AssemblerEncodesOrRefuses : Prop :=
  (∀ bits : Nat, (asmWidth .satu bits).map encode =
    if 1 ≤ bits ∧ bits ≤ 32 then some (BitVec.ofNat 32 (0x13 + (bits - 1) * 2 ^ 8)) else none) ∧
  (∀ bits : Nat, (asmWidth .sats bits).map encode =
    if 1 ≤ bits ∧ bits ≤ 32 then some (BitVec.ofNat 32 (0x14 + (bits - 1) * 2 ^ 8)) else none) ∧
  (∀ e ∈ opcodeMap, ∀ (mk : BitVec 8 → Instr), e.2 = .i mk → ∀ id : Nat, (asmInstance mk id).map encode =
    if id ≤ 255 then some (BitVec.ofNat 32 (e.1.toNat + id * 2 ^ 8)) else none) ∧
  (∀ e ∈ opcodeMap, ∀ (mk : BitVec 4 → Instr), e.2 = .f mk → ∀ fam : Nat, (asmFamily mk fam).map encode =
    if fam ≤ 15 then some (BitVec.ofNat 32 (e.1.toNat + fam * 2 ^ 8)) else none) ∧
  (∀ e ∈ opcodeMap, ∀ (mk : BitVec 8 → Source → BitVec 4 → Instr), e.2 = .o mk →
    (∀ id : Nat, (asmStepSine mk id).map encode =
      if id ≤ 255 then some (BitVec.ofNat 32 (e.1.toNat + id * 2 ^ 8)) else none) ∧
    (∀ id fam : Nat, (asmStepSpline mk id fam).map encode =
      if id ≤ 255 ∧ fam ≤ 15 then some (BitVec.ofNat 32 (e.1.toNat + id * 2 ^ 8 + 2 ^ 16 + fam * 2 ^ 20)) else none)) ∧
  (∀ (id : Nat) (name : String), (asmRead id name).map encode =
    if id ≤ 255 then (["freq", "phase", "pm", "lastpm", "morph"].idxOf? name).map fun sel =>
      BitVec.ofNat 32 (0x57 + id * 2 ^ 8 + sel * 2 ^ 16) else none) ∧
  asmSat15.map encode = some 0x00000E14#32 ∧ asmDac12.map encode = some 0x00000B13#32 ∧
  (∀ id : Nat, asmOstep id = asmStepSine .ostep id)

/-! ### Arithmetic (41_arith.md) -/

/-- R64: the exact signed product, floor-shifted, its low 32 bits, which are bits F+31:F of the 64-bit product. -/
def Obligations.MultiplyIsTheShiftedProduct : Prop :=
  ∀ (a b : Word) (f : Nat), f ∈ [16, 24, 15] →
    mul a b f = BitVec.ofInt 32 (a.toInt * b.toInt / 2 ^ f) ∧ mul a b f = productBits a b f

/-- R65 (a) to (g). -/
def Obligations.MultiplyLaws : Prop :=
  (∀ a b : Word, -2 ^ 62 + 2 ^ 31 ≤ a.toInt * b.toInt ∧ a.toInt * b.toInt ≤ 2 ^ 62) ∧
  (∀ (a b : Word) (f : Nat), f ∈ [16, 24, 15] →
    ((a.signExtend 64 * b.signExtend 64).sshiftRight f).setWidth 32 = mul a b f ∧
    ((a.signExtend 64 * b.signExtend 64) >>> f).setWidth 32 = mul a b f ∧
    BitVec.ofNat 64 ((a.signExtend 64).toNat * (b.signExtend 64).toNat) =
      BitVec.ofInt 64 ((a.signExtend 64).toInt * (b.signExtend 64).toInt) ∧
    mul a b f = mul b a f ∧
    mul a (BitVec.ofNat 32 (2 ^ f)) f = a ∧
    mul a 0#32 f = 0#32 ∧
    mul 0x80000000#32 0x80000000#32 f = 0#32 ∧
    (mul a b f).toInt = (a.toInt * b.toInt / 2 ^ f).bmod (2 ^ 32))

/-- R66: the format of MUL15 truncates at bit 15, and the shift-and-pack of the product's halves gives the same word. -/
def Obligations.FifteenBitMultiplyIsShiftAndPack : Prop :=
  ∀ a b : Word,
    (((a.signExtend 64 * b.signExtend 64).extractLsb' 32 32 <<< 17) |||
      ((a.signExtend 64 * b.signExtend 64).extractLsb' 0 32 >>> 15)) = mul a b 15 ∧
    mul a b 15 = (a.signExtend 64 * b.signExtend 64).extractLsb' 15 32

/-- R70, R71, R72: encodings and results of the three multiplies, in every state. -/
def Obligations.MultiplyCommandsWriteTheProduct : Prop :=
  (decode 0x00000010#32 = .ok .mul16 ∧
    ∀ s, exec .mul16 s = .next { s with res0 := BitVec.ofInt 32 (s.opa.toInt * s.opb.toInt / 2 ^ 16) }) ∧
  (decode 0x00000011#32 = .ok .mul24 ∧
    ∀ s, exec .mul24 s = .next { s with res0 := BitVec.ofInt 32 (s.opa.toInt * s.opb.toInt / 2 ^ 24) }) ∧
  (decode 0x00000012#32 = .ok .mul15 ∧
    ∀ s, exec .mul15 s = .next { s with res0 := BitVec.ofInt 32 (s.opa.toInt * s.opb.toInt / 2 ^ 15) })

/-- R67: the unsigned clamp, and its range. -/
def Obligations.UnsignedClampStaysInRange : Prop :=
  ∀ (x : Word) (bits : Nat), 1 ≤ bits → bits ≤ 32 →
    ((satU x bits).toNat : Int) = min (max x.toInt 0) (2 ^ bits - 1) ∧
    (satU x bits).toNat ≤ 2 ^ bits - 1 ∧
    (31 ≤ bits → ((satU x bits).toNat : Int) = max x.toInt 0)

/-- R68: the symmetric signed clamp, its range, and widths 1 and 32. -/
def Obligations.SignedClampIsSymmetric : Prop :=
  (∀ (x : Word) (bits : Nat), 1 ≤ bits → bits ≤ 32 →
    (satS x bits).toInt = min (max x.toInt (-(2 ^ (bits - 1) - 1))) (2 ^ (bits - 1) - 1) ∧
    -(2 ^ (bits - 1) - 1) ≤ (satS x bits).toInt ∧ (satS x bits).toInt ≤ 2 ^ (bits - 1) - 1 ∧
    (satS x bits).toInt ≠ -2 ^ (bits - 1)) ∧
  (∀ x : Word, satS x 1 = 0#32) ∧
  (∀ x : Word, satS x 32 = if x = 0x80000000#32 then 0x80000001#32 else x)

/-- R69: the magnitude of the signed value as an unsigned word, which for the most negative value is that word itself. -/
def Obligations.AbsoluteValueIsTheMagnitude : Prop :=
  (∀ x : Word, (absw x).toNat = x.toInt.natAbs) ∧ absw 0x80000000#32 = 0x80000000#32

/-- R73, R74, R75: encodings and results of the clamps and the absolute value, in every state. -/
def Obligations.ClampAndAbsoluteCommands : Prop :=
  (∀ n : BitVec 5, decode (BitVec.ofNat 32 (0x13 + n.toNat * 2 ^ 8)) = .ok (.satu n) ∧
    ∀ s, exec (.satu n) s =
      .next { s with res0 := BitVec.ofInt 32 (min (max s.opa.toInt 0) (2 ^ (n.toNat + 1) - 1)) }) ∧
  (∀ n : BitVec 5, decode (BitVec.ofNat 32 (0x14 + n.toNat * 2 ^ 8)) = .ok (.sats n) ∧
    ∀ s, exec (.sats n) s = .next { s with res0 := BitVec.ofInt 32 (clampSigned s.opa.toInt (n.toNat + 1)) }) ∧
  (decode 0x00000015#32 = .ok .abs ∧
    ∀ s, exec .abs s = .next { s with res0 := BitVec.ofNat 32 s.opa.toInt.natAbs })

/-! ### Circular buffers (42_buffer.md) -/

/-- R76: a write stores the word in the slot of the cursor, leaves every other slot, and advances the cursor. -/
def Obligations.BufferWriteStoresAndAdvances : Prop :=
  (∀ (b : Buf 8) (v : Word), (b.write v).cursor.toNat = (b.cursor.toNat + 1) % 2 ^ 32 ∧
    ∀ k : Fin 8, (b.write v).data[k] = if k.val = b.cursor.toNat % 8 then v else b.data[k]) ∧
  (∀ (b : Buf 32) (v : Word), (b.write v).cursor.toNat = (b.cursor.toNat + 1) % 2 ^ 32 ∧
    ∀ k : Fin 32, (b.write v).data[k] = if k.val = b.cursor.toNat % 32 then v else b.data[k]) ∧
  (∀ (b : Buf 256) (v : Word), (b.write v).cursor.toNat = (b.cursor.toNat + 1) % 2 ^ 32 ∧
    ∀ k : Fin 256, (b.write v).data[k] = if k.val = b.cursor.toNat % 256 then v else b.data[k])

/-- R77: a read at offset k gives the word in slot `(cursor − 1 − k) mod D`; only k mod D matters. -/
def Obligations.BufferReadCountsBackFromTheCursor : Prop :=
  (∀ (b : Buf 8) (k : Word),
    b.data[(((b.cursor.toNat : Int) - 1 - k.toNat) % 8).toNat]? = some (b.read k) ∧ b.read (k + 8#32) = b.read k) ∧
  (∀ (b : Buf 32) (k : Word),
    b.data[(((b.cursor.toNat : Int) - 1 - k.toNat) % 32).toNat]? = some (b.read k) ∧ b.read (k + 32#32) = b.read k) ∧
  (∀ (b : Buf 256) (k : Word),
    b.data[(((b.cursor.toNat : Int) - 1 - k.toNat) % 256).toNat]? = some (b.read k) ∧ b.read (k + 256#32) = b.read k)

/-- R84 (a), (b), (c): after the writes `vs` to an instance whose words are all 0, wherever its cursor stood, offset
k < D gives the write k before the last, or 0 when there were not so many; (d): a write to one instance changes no other
instance of any depth. -/
def Obligations.BufferReadsBackItsWrites : Prop :=
  (∀ (id : BitVec 8) (s t : State),
    (exec (.bwr8 id) s = .next t →
      (∀ k, k ≠ id.toNat → t.buf8[k]? = s.buf8[k]?) ∧ t.buf32 = s.buf32 ∧ t.buf256 = s.buf256) ∧
    (exec (.bwr32 id) s = .next t →
      (∀ k, k ≠ id.toNat → t.buf32[k]? = s.buf32[k]?) ∧ t.buf8 = s.buf8 ∧ t.buf256 = s.buf256) ∧
    (exec (.bwr256 id) s = .next t →
      (∀ k, k ≠ id.toNat → t.buf256[k]? = s.buf256[k]?) ∧ t.buf8 = s.buf8 ∧ t.buf32 = s.buf32)) ∧
  (∀ (cursor : Word) (vs : List Word) (k : Word), k.toNat < 8 →
    (vs.foldl Buf.write { Buf.reset 8 with cursor := cursor }).read k =
      if k.toNat < vs.length then vs.getD (vs.length - 1 - k.toNat) 0#32 else 0#32) ∧
  (∀ (cursor : Word) (vs : List Word) (k : Word), k.toNat < 32 →
    (vs.foldl Buf.write { Buf.reset 32 with cursor := cursor }).read k =
      if k.toNat < vs.length then vs.getD (vs.length - 1 - k.toNat) 0#32 else 0#32) ∧
  (∀ (cursor : Word) (vs : List Word) (k : Word), k.toNat < 256 →
    (vs.foldl Buf.write { Buf.reset 256 with cursor := cursor }).read k =
      if k.toNat < vs.length then vs.getD (vs.length - 1 - k.toNat) 0#32 else 0#32)

/-- R78, R80, R82: encodings and effects of the buffer writes: the named instance alone changes, or BAD_INSTANCE. -/
def Obligations.BufferWriteCommands : Prop :=
  (∀ id : BitVec 8, decode (BitVec.ofNat 32 (0x20 + id.toNat * 2 ^ 8)) = .ok (.bwr8 id) ∧ ∀ s,
    (∀ b, s.buf8[id.toNat]? = some b →
      exec (.bwr8 id) s = .next { s with
        buf8 := s.buf8.set id.toNat
          { data := b.data.set (b.cursor.toNat % 8) s.opa (Nat.mod_lt _ (by decide)), cursor := b.cursor + 1#32 } }) ∧
    (s.buf8.length ≤ id.toNat → s.faulted = false →
      exec (.bwr8 id) s = .next (faultEntry s 2 (BitVec.ofNat 32 (0x20 + id.toNat * 2 ^ 8))))) ∧
  (∀ id : BitVec 8, decode (BitVec.ofNat 32 (0x22 + id.toNat * 2 ^ 8)) = .ok (.bwr32 id) ∧ ∀ s,
    (∀ b, s.buf32[id.toNat]? = some b →
      exec (.bwr32 id) s = .next { s with
        buf32 := s.buf32.set id.toNat
          { data := b.data.set (b.cursor.toNat % 32) s.opa (Nat.mod_lt _ (by decide)), cursor := b.cursor + 1#32 } }) ∧
    (s.buf32.length ≤ id.toNat → s.faulted = false →
      exec (.bwr32 id) s = .next (faultEntry s 2 (BitVec.ofNat 32 (0x22 + id.toNat * 2 ^ 8))))) ∧
  (∀ id : BitVec 8, decode (BitVec.ofNat 32 (0x24 + id.toNat * 2 ^ 8)) = .ok (.bwr256 id) ∧ ∀ s,
    (∀ b, s.buf256[id.toNat]? = some b →
      exec (.bwr256 id) s = .next { s with
        buf256 := s.buf256.set id.toNat
          { data := b.data.set (b.cursor.toNat % 256) s.opa (Nat.mod_lt _ (by decide)), cursor := b.cursor + 1#32 } }) ∧
    (s.buf256.length ≤ id.toNat → s.faulted = false →
      exec (.bwr256 id) s = .next (faultEntry s 2 (BitVec.ofNat 32 (0x24 + id.toNat * 2 ^ 8)))))

/-- R79, R81, R83: encodings and results of the buffer reads, or BAD_INSTANCE. -/
def Obligations.BufferReadCommands : Prop :=
  (∀ id : BitVec 8, decode (BitVec.ofNat 32 (0x21 + id.toNat * 2 ^ 8)) = .ok (.brd8 id) ∧ ∀ s,
    (∀ b, s.buf8[id.toNat]? = some b →
      exec (.brd8 id) s = .next { s with
        res0 := b.data.getD (((b.cursor.toNat : Int) - 1 - s.opa.toNat) % 8).toNat 0#32 }) ∧
    (s.buf8.length ≤ id.toNat → s.faulted = false →
      exec (.brd8 id) s = .next (faultEntry s 2 (BitVec.ofNat 32 (0x21 + id.toNat * 2 ^ 8))))) ∧
  (∀ id : BitVec 8, decode (BitVec.ofNat 32 (0x23 + id.toNat * 2 ^ 8)) = .ok (.brd32 id) ∧ ∀ s,
    (∀ b, s.buf32[id.toNat]? = some b →
      exec (.brd32 id) s = .next { s with
        res0 := b.data.getD (((b.cursor.toNat : Int) - 1 - s.opa.toNat) % 32).toNat 0#32 }) ∧
    (s.buf32.length ≤ id.toNat → s.faulted = false →
      exec (.brd32 id) s = .next (faultEntry s 2 (BitVec.ofNat 32 (0x23 + id.toNat * 2 ^ 8))))) ∧
  (∀ id : BitVec 8, decode (BitVec.ofNat 32 (0x25 + id.toNat * 2 ^ 8)) = .ok (.brd256 id) ∧ ∀ s,
    (∀ b, s.buf256[id.toNat]? = some b →
      exec (.brd256 id) s = .next { s with
        res0 := b.data.getD (((b.cursor.toNat : Int) - 1 - s.opa.toNat) % 256).toNat 0#32 }) ∧
    (s.buf256.length ≤ id.toNat → s.faulted = false →
      exec (.brd256 id) s = .next (faultEntry s 2 (BitVec.ofNat 32 (0x25 + id.toNat * 2 ^ 8)))))

/-! ### Interpolation (43_interp.md) -/

/-- R85: the lerp, with the difference and the sum modulo 2^32. -/
def Obligations.LerpIsTheWrappedFormula : Prop :=
  ∀ (a b f : Word) (w : Nat), w ∈ [16, 15] → lerpF a b f w = lerpValue a b f w

/-- R86 (a) to (e). -/
def Obligations.LerpLaws : Prop :=
  (∀ (a b f : Word) (w : Nat), w ∈ [16, 15] →
    lerpF a b 0#32 w = a ∧ lerpF a a f w = a) ∧
  (∀ (a b : Word) (w : Nat), w ∈ [16, 15] → -2 ^ 31 ≤ b.toInt - a.toInt → b.toInt - a.toInt < 2 ^ 31 →
    b.toInt - (lerpF a b (BitVec.ofNat 32 (2 ^ w - 1)) w).toInt = -(-(b.toInt - a.toInt) / 2 ^ w) ∧
    ((b.toInt - (lerpF a b (BitVec.ofNat 32 (2 ^ w - 1)) w).toInt).natAbs ≤ 1 ↔
      (0 ≤ b.toInt - a.toInt ∧ b.toInt - a.toInt ≤ 2 ^ w) ∨
      (-2 ^ (w + 1) < b.toInt - a.toInt ∧ b.toInt - a.toInt < 0))) ∧
  (∀ a b f : Word, -2 ^ 30 ≤ f.toInt → f.toInt < 2 ^ 30 → lerpF a b (f + f) 16 = lerpF a b f 15) ∧
  (∀ (a b f : Word) (w : Nat), w ∈ [16, 15] → -2 ^ 31 ≤ b.toInt - a.toInt → b.toInt - a.toInt < 2 ^ 31 →
    -2 ^ 31 ≤ a.toInt + (b.toInt - a.toInt) * f.toInt / 2 ^ w → a.toInt + (b.toInt - a.toInt) * f.toInt / 2 ^ w < 2 ^ 31 →
    (lerpF a b f w).toInt = a.toInt + (b.toInt - a.toInt) * f.toInt / 2 ^ w ∧
    (lerpF a b f w).toInt * 2 ^ w ≤ a.toInt * 2 ^ w + (b.toInt - a.toInt) * f.toInt)

/-- R87: the pre-differenced word, its lerp, and that it is the plain lerp from base to base + delta; R88: the two delta
forms, the sign form being bit 31 as a word. -/
def Obligations.PreDifferencedLerpIsALerp : Prop :=
  (∀ d : Word, deltaOut .raw d = d ∧ deltaOut .sgn d = (if d.toInt < 0 then 1#32 else 0#32) ∧
    deltaOut .sgn d = d >>> 31) ∧
  ∀ w f : Word,
    pdBase w = baseValue w ∧ pdDelta w = deltaValue w ∧
    pd w f = pdValue w f ∧
    pd w f = lerpF (BitVec.ofInt 32 (baseValue w)) (BitVec.ofInt 32 (baseValue w + deltaValue w)) f 16 ∧
    (BitVec.ofInt 32 (baseValue w + deltaValue w)).toInt = baseValue w + deltaValue w

/-- R89 to R92: encodings and results of the linear and bilinear commands, in every state. -/
def Obligations.LinearInterpolationCommands : Prop :=
  (decode 0x00000030#32 = .ok .lerp16 ∧
    ∀ s, exec .lerp16 s = .next { s with res0 := lerpValue s.opa s.opb s.opc 16 }) ∧
  (decode 0x00000031#32 = .ok .lerp15 ∧
    ∀ s, exec .lerp15 s = .next { s with res0 := lerpValue s.opa s.opb s.opc 15 }) ∧
  (decode 0x00000032#32 = .ok .bilerp16 ∧
    ∀ s, exec .bilerp16 s = .next { s with
      res0 := lerpValue (lerpValue s.opa s.opb s.ope 16) (lerpValue s.opc s.opd s.ope 16) s.opf 16 }) ∧
  (decode 0x00000033#32 = .ok .bilerp15 ∧
    ∀ s, exec .bilerp15 s = .next { s with
      res0 := lerpValue (lerpValue s.opa s.opb s.ope 15) (lerpValue s.opc s.opd s.ope 15) s.opf 15 })

/-- R93 to R96: encodings and both results of the pre-differenced commands, in every state. -/
def Obligations.PreDifferencedCommands : Prop :=
  (decode 0x00000034#32 = .ok .pdlerpRaw ∧
    ∀ s, exec .pdlerpRaw s = .next { s with
      res0 := pdValue s.opa s.opb, res1 := BitVec.ofInt 32 (deltaValue s.opa) }) ∧
  (decode 0x00000035#32 = .ok .pdlerpSgn ∧
    ∀ s, exec .pdlerpSgn s = .next { s with res0 := pdValue s.opa s.opb, res1 := s.opa >>> 31 }) ∧
  (decode 0x00000036#32 = .ok .pdbilerpRaw ∧
    ∀ s, exec .pdbilerpRaw s = .next { s with
      res0 := lerpValue (pdValue s.opa s.opc) (pdValue s.opb s.opc) s.opd 16
      res1 := pdValue s.opb s.opc - pdValue s.opa s.opc }) ∧
  (decode 0x00000037#32 = .ok .pdbilerpSgn ∧
    ∀ s, exec .pdbilerpSgn s = .next { s with
      res0 := lerpValue (pdValue s.opa s.opc) (pdValue s.opb s.opc) s.opd 16
      res1 := if (pdValue s.opb s.opc - pdValue s.opa s.opc).toInt < 0 then 1#32 else 0#32 })

/-! ### The spline evaluator (44_spline.md) -/

/-- R102: the kernel has the node property Q1, the continuity property Q2 on the windows the parameter calls smooth, and
the ramp-midpoint property Q3, for every value of the parameters. The reading of "smoothly" as a parameter and of
(m_2 + m_3)/2 as a floor are the model's (log entry 3). -/
def Obligations.KernelHasItsNamedProperties : Prop :=
  ∀ p : Config.Params,
    (∀ m : Config.Samples, quintic p m 0#16 = m.m2) ∧
    (∀ (m : Config.Samples) (m6 : Word), p.smooth m = true →
      ((quintic p m 0xFFFF#16).toInt -
        (quintic p { m0 := m.m1, m1 := m.m2, m2 := m.m3, m3 := m.m4, m4 := m.m5, m5 := m6 } 0#16).toInt).natAbs
          ≤ p.contTol) ∧
    (∀ (m : Config.Samples) (a d : Int), m.m0.toInt = a → m.m1.toInt = a + d → m.m2.toInt = a + 2 * d →
      m.m3.toInt = a + 3 * d → m.m4.toInt = a + 4 * d → m.m5.toInt = a + 5 * d →
      ((quintic p m 0x8000#16).toInt - (m.m2.toInt + m.m3.toInt) / 2).natAbs ≤ p.midTol)

/-- R98, R99, R101: the window of an evaluation is the six samples at padded positions i to i + 5, i the top half of the
phase, of table j, the top half of the morph; and each of the machine's morphed samples is table j's sample plus the floor
of the morphed difference to table j + 1, wherever the ROM's delta is that difference. -/
def Obligations.MorphedSampleBlendsTwoTables : Prop :=
  (∀ (p : Config.Params) (fam : BitVec 4) (phase morph : Word),
    splineWindow p fam phase morph = windowSamples p fam phase morph) ∧
  ∀ (p : Config.Params) (fam : BitVec 4) (phase morph : Word) (k : Nat),
    let here := p.wt fam (morph.toNat / 65536) (phase.toNat / 65536 + k)
    let next := p.wt fam (morph.toNat / 65536 + 1) (phase.toNat / 65536 + k)
    deltaValue here = baseValue next - baseValue here →
    (morphedSample p fam (leftTable morph) (leftIndex phase + k) (morphFraction morph)).toInt =
      baseValue here + (baseValue next - baseValue here) * ((morph.toNat % 65536 : Nat) : Int) / 65536

/-- R107 to R110: the four spline commands complete, with the sample and the delta of R97, when the family exists and the
window lies in its tables; their encodings. -/
def Obligations.SplineCommandsComplete : Prop :=
  (∀ fam : BitVec 4, decode (BitVec.ofNat 32 (0x40 + fam.toNat * 2 ^ 8)) = .ok (.qevalRaw fam) ∧
    decode (BitVec.ofNat 32 (0x41 + fam.toNat * 2 ^ 8)) = .ok (.qevalSgn fam) ∧
    decode (BitVec.ofNat 32 (0x42 + fam.toNat * 2 ^ 8)) = .ok (.qevaliRaw fam) ∧
    decode (BitVec.ofNat 32 (0x43 + fam.toNat * 2 ^ 8)) = .ok (.qevaliSgn fam)) ∧
  (∀ (fam : BitVec 4) (s : State), fam.toNat < Config.params.numFam →
    windowInTables Config.params fam s.opa s.opb = true →
    exec (.qevalRaw fam) s = .next { s with
      res0 := quinticResult Config.params fam s.opa s.opb, res1 := windowDelta Config.params fam s.opa s.opb } ∧
    exec (.qevalSgn fam) s = .next { s with
      res0 := quinticResult Config.params fam s.opa s.opb
      res1 := if (windowDelta Config.params fam s.opa s.opb).toInt < 0 then 1#32 else 0#32 } ∧
    exec (.qevaliRaw fam) s = .next { s with
      res0 := blendedResult Config.params fam s.opa s.opb s.opc
      res1 := windowDelta Config.params fam s.opa s.opb } ∧
    exec (.qevaliSgn fam) s = .next { s with
      res0 := blendedResult Config.params fam s.opa s.opb s.opc
      res1 := if (windowDelta Config.params fam s.opa s.opb).toInt < 0 then 1#32 else 0#32 })

/-- R100 and the faults of R107: for every value of the parameters, a spline command whose family does not exist takes
BAD_INSTANCE, one whose window leaves the tables takes TABLE_RANGE, and neither writes a result; the four commands are
this one operation under the parameters of the block. -/
def Obligations.SplineCommandsCheckTheirTables : Prop :=
  (∀ (p : Config.Params) (c : Word) (fam : BitVec 4) (io : Option Word) (form : DeltaForm) (s : State),
    s.faulted = false →
    (p.numFam ≤ fam.toNat → splineCommand p c fam io form s = .next (faultEntry s 2 c)) ∧
    (fam.toNat < p.numFam → windowInTables p fam s.opa s.opb = false →
      splineCommand p c fam io form s = .next (faultEntry s 3 c))) ∧
  (∀ (fam : BitVec 4) (s : State),
    exec (.qevalRaw fam) s =
      splineCommand Config.params (BitVec.ofNat 32 (0x40 + fam.toNat * 2 ^ 8)) fam none .raw s ∧
    exec (.qevalSgn fam) s =
      splineCommand Config.params (BitVec.ofNat 32 (0x41 + fam.toNat * 2 ^ 8)) fam none .sgn s ∧
    exec (.qevaliRaw fam) s =
      splineCommand Config.params (BitVec.ofNat 32 (0x42 + fam.toNat * 2 ^ 8)) fam (some s.opc) .raw s ∧
    exec (.qevaliSgn fam) s =
      splineCommand Config.params (BitVec.ofNat 32 (0x43 + fam.toNat * 2 ^ 8)) fam (some s.opc) .sgn s)

/-- R106: the blend factor 0 gives the quintic result, 1.0 the centre sample clamped to 15 signed bits, every result is
clamped, and the centre sample is the morphed sample at padded position i + 2. -/
def Obligations.BlendFactorEndpoints : Prop :=
  (∀ (p : Config.Params) (fam : BitVec 4) (phase morph : Word),
    (splineWindow p fam phase morph).m2 = windowSample p fam phase morph 2) ∧
  ∀ (p : Config.Params) (m : Config.Samples) (t : BitVec 16),
    splineSample p m t (some 0#32) = splineSample p m t none ∧
    (splineSample p m t (some 0x00010000#32)).toInt = clampSigned m.m2.toInt 15 ∧
    (∀ io, splineSample p m t (some io) = satS (lerpF (splineSample p m t none) m.m2 io 16) 15)

/-- R111 (a), (c) of the six samples the evaluator reads, (d) and (e), for every value of the parameters, and (b) with its
reach: a negative blend factor on a
centre sample beyond ±16383 is not covered, and the last clause shows one that leaves the clamped centre sample (log entry
14). -/
def Obligations.SplineLaws : Prop :=
  (∀ (p : Config.Params) (fam : BitVec 4) (phase morph : Word) (io : Option Word) (form : DeltaForm) (y d : Word),
    splineEval p fam phase morph io form = .ok (y, d) →
    y.toInt.natAbs ≤ 16383 ∧
    (phase.toNat % 65536 = 0 →
      (∀ b, io = some b → 0 ≤ b.toInt ∨ (windowSample p fam phase morph 2).toInt.natAbs ≤ 16383) →
      y.toInt = clampSigned (windowSample p fam phase morph 2).toInt 15) ∧
    (morph.toNat % 65536 = 0 →
      let m := splineWindow p fam phase morph
      ∀ e ∈ [(m.m0, 0), (m.m1, 1), (m.m2, 2), (m.m3, 3), (m.m4, 4), (m.m5, 5)],
        e.1.toInt = baseValue (p.wt fam (morph.toNat / 65536) (phase.toNat / 65536 + e.2))) ∧
    (∀ (phase' : Word) (io' : Option Word), phase'.toNat / 65536 = phase.toNat / 65536 →
      ∃ y', splineEval p fam phase' morph io' form = .ok (y', d))) ∧
  (∀ (p : Config.Params) (c : Word) (fam : BitVec 4) (io : Option Word) (form : DeltaForm) (s : State),
    s.faulted = false → ∃ t, splineCommand p c fam io form s = .next t ∧
      (t = { s with res0 := t.res0, res1 := t.res1 } ∨ t = { s with status := t.status, fcmd := t.fcmd })) ∧
  (∀ (p : Config.Params) (m : Config.Samples), m.m2 = 0x7FFF#32 →
    splineSample p m 0#16 (some 0xFFFF0000#32) = 0xFFFFFFFF#32)

/-! ### The oscillator (45_osc.md) -/

/-- R113 to R116: encodings and effects of the state-setting commands on an oscillator that exists, and BAD_INSTANCE on
one that does not. -/
def Obligations.OscillatorSettingCommands : Prop :=
  ∀ id : BitVec 8,
    decode (BitVec.ofNat 32 (0x50 + id.toNat * 2 ^ 8)) = .ok (.osetf id) ∧
    decode (BitVec.ofNat 32 (0x51 + id.toNat * 2 ^ 8)) = .ok (.osetm id) ∧
    decode (BitVec.ofNat 32 (0x52 + id.toNat * 2 ^ 8)) = .ok (.opm id) ∧
    decode (BitVec.ofNat 32 (0x56 + id.toNat * 2 ^ 8)) = .ok (.orst id) ∧
    (∀ s : State, s.osc.length ≤ id.toNat → s.faulted = false →
      exec (.osetf id) s = .next (faultEntry s 2 (BitVec.ofNat 32 (0x50 + id.toNat * 2 ^ 8))) ∧
      exec (.osetm id) s = .next (faultEntry s 2 (BitVec.ofNat 32 (0x51 + id.toNat * 2 ^ 8))) ∧
      exec (.opm id) s = .next (faultEntry s 2 (BitVec.ofNat 32 (0x52 + id.toNat * 2 ^ 8))) ∧
      exec (.orst id) s = .next (faultEntry s 2 (BitVec.ofNat 32 (0x56 + id.toNat * 2 ^ 8)))) ∧
    ∀ (s : State) (o : Osc), s.osc[id.toNat]? = some o →
      exec (.osetf id) s = .next { s with osc := s.osc.set id.toNat { o with frequency := s.opa } } ∧
      exec (.osetm id) s = .next { s with osc := s.osc.set id.toNat { o with morph := s.opa } } ∧
      exec (.opm id) s = .next { s with
        osc := s.osc.set id.toNat { o with
          phaseModulation := BitVec.ofInt 32 (s.opa.toInt - o.lastPhaseModulation.toInt)
          lastPhaseModulation := s.opa } } ∧
      exec (.orst id) s = .next { s with osc := s.osc.set id.toNat { o with phase := 0#32 } }

/-- R117: encoding and result of ORD for each of the five selectors, on an oscillator that exists, and BAD_INSTANCE on one
that does not. -/
def Obligations.OscillatorReadCommand : Prop :=
  ∀ (id : BitVec 8) (sel : OscField),
    let n := [OscField.frequency, .phase, .phaseModulation, .lastPhaseModulation, .morph].idxOf sel
    decode (BitVec.ofNat 32 (0x57 + id.toNat * 2 ^ 8 + n * 2 ^ 16)) = .ok (.ord id sel) ∧
    (∀ s : State, s.osc.length ≤ id.toNat → s.faulted = false →
      exec (.ord id sel) s = .next (faultEntry s 2 (BitVec.ofNat 32 (0x57 + id.toNat * 2 ^ 8 + n * 2 ^ 16)))) ∧
    ∀ (s : State) (o : Osc), s.osc[id.toNat]? = some o →
      exec (.ord id sel) s = .next { s with
        res0 := [o.frequency, o.phase, o.phaseModulation, o.lastPhaseModulation, o.morph].getD n 0#32 }

/-- The first check of R121 to R123: a step command whose oscillator does not exist takes BAD_INSTANCE on either path,
with its whole word in FCMD, and moves and writes nothing. -/
def Obligations.StepCommandsCheckTheirInstance : Prop :=
  ∀ (id : BitVec 8) (fam : BitVec 4) (s : State), s.osc.length ≤ id.toNat → s.faulted = false →
    exec (.ostep id .sine 0#4) s = .next (faultEntry s 2 (BitVec.ofNat 32 (0x53 + id.toNat * 2 ^ 8))) ∧
    exec (.ostepfm id .sine 0#4) s = .next (faultEntry s 2 (BitVec.ofNat 32 (0x54 + id.toNat * 2 ^ 8))) ∧
    exec (.obeat id .sine 0#4) s = .next (faultEntry s 2 (BitVec.ofNat 32 (0x55 + id.toNat * 2 ^ 8))) ∧
    exec (.ostep id .spline fam) s =
      .next (faultEntry s 2 (BitVec.ofNat 32 (0x53 + id.toNat * 2 ^ 8 + 2 ^ 16 + fam.toNat * 2 ^ 20))) ∧
    exec (.ostepfm id .spline fam) s =
      .next (faultEntry s 2 (BitVec.ofNat 32 (0x54 + id.toNat * 2 ^ 8 + 2 ^ 16 + fam.toNat * 2 ^ 20))) ∧
    exec (.obeat id .spline fam) s =
      .next (faultEntry s 2 (BitVec.ofNat 32 (0x55 + id.toNat * 2 ^ 8 + 2 ^ 16 + fam.toNat * 2 ^ 20)))

/-- R119 with R121, R122, R123: a step on the sine path moves the phase, writes the sine sample at the new phase to RES0
and the new phase to RES1, and completes for every oscillator that exists. The family field is 0, since R57 makes any
other on the sine path illegal. -/
def Obligations.SineStepsComplete : Prop :=
  ∀ (id : BitVec 8) (s : State) (o : Osc), s.osc[id.toNat]? = some o →
    ∀ i ∈ [Instr.ostep id .sine 0#4, .ostepfm id .sine 0#4, .obeat id .sine 0#4],
      exec i s = .next { s with
        osc := s.osc.set id.toNat { o with phase := nextPhase i o s }
        res0 := sineValue Config.params (nextPhase i o s)
        res1 := nextPhase i o s }

/-- R120 with R121, R122, R123: a step on the spline path evaluates the window at the shifted new phase and the
oscillator's morph, and completes when the oscillator and the family exist and the window lies in the tables. -/
def Obligations.SplineStepsComplete : Prop :=
  ∀ (id : BitVec 8) (fam : BitVec 4) (s : State) (o : Osc), s.osc[id.toNat]? = some o →
    fam.toNat < Config.params.numFam →
    ∀ i ∈ [Instr.ostep id .spline fam, .ostepfm id .spline fam, .obeat id .spline fam],
      windowInTables Config.params fam (splinePhase Config.params fam (nextPhase i o s)) o.morph = true →
      exec i s = .next { s with
        osc := s.osc.set id.toNat { o with phase := nextPhase i o s }
        res0 := quinticResult Config.params fam (splinePhase Config.params fam (nextPhase i o s)) o.morph
        res1 := nextPhase i o s }

/-- R121 to R123: for every value of the parameters, a step whose spline evaluation faults takes that fault and leaves the
oscillator and both results; the three step commands are this one operation under the parameters of the block, each with
its own word and its own new phase. -/
def Obligations.FaultingStepLeavesTheOscillator : Prop :=
  (∀ (p : Config.Params) (c : Word) (id : BitVec 8) (fam : BitVec 4) (newPhase : Osc → Word) (s : State) (o : Osc),
    s.faulted = false → s.osc[id.toNat]? = some o →
    (p.numFam ≤ fam.toNat → oscStep p c id .spline fam newPhase s = .next (faultEntry s 2 c)) ∧
    (fam.toNat < p.numFam → windowInTables p fam (splinePhase p fam (newPhase o)) o.morph = false →
      oscStep p c id .spline fam newPhase s = .next (faultEntry s 3 c))) ∧
  (∀ (id : BitVec 8) (fam : BitVec 4) (s : State),
    exec (.ostep id .spline fam) s =
      oscStep Config.params (BitVec.ofNat 32 (0x53 + id.toNat * 2 ^ 8 + 2 ^ 16 + fam.toNat * 2 ^ 20)) id .spline fam
        Osc.advance s ∧
    exec (.ostepfm id .spline fam) s =
      oscStep Config.params (BitVec.ofNat 32 (0x54 + id.toNat * 2 ^ 8 + 2 ^ 16 + fam.toNat * 2 ^ 20)) id .spline fam
        (fun o => o.advanceFM s.opa) s ∧
    exec (.obeat id .spline fam) s =
      oscStep Config.params (BitVec.ofNat 32 (0x55 + id.toNat * 2 ^ 8 + 2 ^ 16 + fam.toNat * 2 ^ 20)) id .spline fam
        (fun o => o.beat s.opa) s ∧
    ∀ o : Osc, o.advance = nextPhase (.ostep id .spline fam) o s ∧
      o.advanceFM s.opa = nextPhase (.ostepfm id .spline fam) o s ∧
      o.beat s.opa = nextPhase (.obeat id .spline fam) o s)

/-- The law of R112: an oscillator at phase 0 with no nudge, whose frequency divides 2^32, is at phase 0 again after
2^32 / F steps and not before. -/
def Obligations.PhaseReturnsToZeroExactly : Prop :=
  ∀ (id : BitVec 8) (run : Nat → State) (o : Osc), (run 0).osc[id.toNat]? = some o →
    o.phase = 0#32 → o.phaseModulation = 0#32 → o.frequency ≠ 0#32 → o.frequency.toNat ∣ 2 ^ 32 →
    (∀ n, exec (.ostep id .sine 0#4) (run n) = .next (run (n + 1))) →
    ((run (2 ^ 32 / o.frequency.toNat)).osc[id.toNat]?).map Osc.phase = some 0#32 ∧
    ∀ n, 0 < n → n < 2 ^ 32 / o.frequency.toNat → ((run n).osc[id.toNat]?).map Osc.phase ≠ some 0#32

/-! ### Fold and wrap (46_fold.md) -/

/-- R124, R125, R126: encodings and results of the fold and wrap commands, in every state. -/
def Obligations.FoldAndWrapCommands : Prop :=
  (decode 0x00000060#32 = .ok .fold16 ∧ ∀ s, exec .fold16 s = .next { s with
    res0 := BitVec.ofNat 32 (if s.opa.toNat / 2 ^ 16 % 2 = 1 then 65535 - s.opa.toNat % 65536 else s.opa.toNat % 65536) }) ∧
  (decode 0x00000061#32 = .ok .fold25 ∧ ∀ s, exec .fold25 s = .next { s with
    res0 := BitVec.ofNat 32
      (if s.opa.toNat / 2 ^ 25 % 2 = 1 then 0x1FFFFFF - s.opa.toNat % 2 ^ 25 else s.opa.toNat % 2 ^ 25) }) ∧
  (decode 0x00000062#32 = .ok .wrap16 ∧ ∀ s, exec .wrap16 s = .next { s with
    res0 := BitVec.ofNat 32 (s.opa.toNat % 65536) } ∧ (s.opa.toNat % 65536 : Nat) = s.opa.toInt % 65536)

/-- R127 (a) to (d). -/
def Obligations.FoldAndWrapLaws : Prop :=
  (∀ x : Word, wrap16 (wrap16 x) = wrap16 x) ∧
  (∀ x : Word, (fold16 x).toNat < 65536 ∧ fold16 x = fold16 (x + BitVec.ofNat 32 (2 * 65536))) ∧
  (∀ x : Word, (fold25 x).toNat < 2 ^ 25 ∧ fold25 x = fold25 (x + BitVec.ofNat 32 (2 ^ 26))) ∧
  fold16 0x0000FFFF#32 = 0xFFFF#32 ∧ fold16 0x00010000#32 = 0xFFFF#32 ∧
  fold16 0x0001FFFF#32 = 0#32 ∧ fold16 0x00020000#32 = 0#32

/-! ### System and faults (47_system.md, 60_exceptions.md) -/

/-- R129: NOP changes no state, and a NOP word with a reserved bit set is illegal; R59: a host that writes 0 to CMD
changes nothing, in every state. -/
def Obligations.NopChangesNothing : Prop :=
  decode 0x00000000#32 = .ok .nop ∧ (∀ s, exec .nop s = .next s) ∧
  (∀ c : Word, c.toNat % 256 = 0 → c ≠ 0#32 → decode c = .error .reservedBit) ∧
  (∀ s, issue 0#32 s = .next s)

/-- R132 with R58, R133: a command word issued to a block with no fault takes the fault of the first check it fails, with
that cause in STATUS and the word in FCMD and nothing else changed, or fails none and leaves STATUS and FCMD. Whether a
window can leave the block's tables rests on its opaque sizes; SplineCommandsCheckTheirTables and
FaultingStepLeavesTheOscillator state TABLE_RANGE for every size. -/
def Obligations.FirstFailingCheckDecidesTheFault : Prop :=
  ∀ (c : Word) (s : State), s.faulted = false →
    match firstFailure c s with
    | some code => issue c s = .next (faultEntry s code c)
    | none => ∃ t, issue c s = .next t ∧ t.status = s.status ∧ t.fcmd = s.fcmd

/-- R134: a command that ends in a fault has changed nothing but STATUS and FCMD, and FCMD holds the whole word. -/
def Obligations.FaultsArePrecise : Prop :=
  ∀ (c : Word) (s t : State), s.faulted = false → issue c s = .next t → t.faulted = true →
    t = { s with status := t.status, fcmd := c } ∧
    (t.status.extractLsb' 1 3 = 1#3 ∨ t.status.extractLsb' 1 3 = 2#3 ∨ t.status.extractLsb' 1 3 = 3#3) ∧
    t.status.extractLsb' 4 28 = s.status.extractLsb' 4 28

/-- R135: while STATUS.FAULT = 1 a command word of any kind is ignored, and host reads and operand writes go on. -/
def Obligations.HaltedBlockIgnoresCommands : Prop :=
  ∀ (s : State) (rest : List Access), s.faulted = true →
    (∀ c, s.pending = .write 0x00 4 c :: rest → step s = .next { s with pending := rest, reply := none }) ∧
    (∀ r, s.pending = .read (HostReg.offset r) 4 :: rest →
      step s = .next { s with pending := rest, reply := some (s.readHost r) }) ∧
    (∀ v, ∀ e ∈ [(0x04, { s with opa := v }), (0x08, { s with opb := v }), (0x0C, { s with opc := v }),
        (0x10, { s with opd := v }), (0x14, { s with ope := v }), (0x18, { s with opf := v })],
      s.pending = .write e.1 4 v :: rest → step s = .next { e.2 with pending := rest, reply := none })

/-- R136: no step but one that makes the reset access changes STATUS or FCMD once a fault is recorded, and that one clears
both. -/
def Obligations.OnlyResetClearsAFault : Prop :=
  ∀ s t : State, s.faulted = true → step s = .next t →
    (s.pending.head? ≠ some .reset → t.status = s.status ∧ t.fcmd = s.fcmd) ∧
    (s.pending.head? = some .reset → t.status = 0#32 ∧ t.fcmd = 0#32)

/-- R152, R155: every command ends, in every state, in a next state. -/
def Obligations.EveryCommandEnds : Prop :=
  ∀ (i : Instr) (s : State), ∃ t, exec i s = .next t

/-- R13, R14, R56: no command writes an operand register or the host's side, and a result register changes only under a
command whose row of the opcode map writes it. -/
def Obligations.CommandsWriteOnlyTheirResults : Prop :=
  ∀ (i : Instr) (s t : State), exec i s = .next t →
    t.opa = s.opa ∧ t.opb = s.opb ∧ t.opc = s.opc ∧ t.opd = s.opd ∧ t.ope = s.ope ∧ t.opf = s.opf ∧
    t.pending = s.pending ∧ t.reply = s.reply ∧
    (.res0 ∉ resultsWritten i → t.res0 = s.res0) ∧ (.res1 ∉ resultsWritten i → t.res1 = s.res1)

/-- R56, R154: a command depends on no operand register but those its row of the opcode map reads. -/
def Obligations.CommandsReadOnlyTheirOperands : Prop :=
  ∀ (i : Instr) (s : State) (r : HostReg) (v : Word), r ∈ [.opa, .opb, .opc, .opd, .ope, .opf] →
    r ∉ operandsRead i → ∃ t, exec i s = .next t ∧ exec i (poke s r v) = .next (poke t r v)

/-- R154: no command reads RES0 or RES1: their values before it reach nothing but themselves. -/
def Obligations.CommandsReadNoResultRegister : Prop :=
  ∀ (i : Instr) (s t : State) (v w : Word), exec i s = .next t →
    ∃ t', exec i { s with res0 := v, res1 := w } = .next t' ∧
      t' = { t with res0 := t'.res0, res1 := t'.res1 } ∧
      (t'.res0 = t.res0 ∨ (t.res0 = s.res0 ∧ t'.res0 = v)) ∧ (t'.res1 = t.res1 ∨ (t.res1 = s.res1 ∧ t'.res1 = w))

/-- R84 (d), R144: a command changes no buffer or oscillator but the instance its field names, and keeps every count. -/
def Obligations.InstancesAreIndependent : Prop :=
  ∀ (i : Instr) (s t : State), exec i s = .next t →
    t.buf8.length = s.buf8.length ∧ t.buf32.length = s.buf32.length ∧ t.buf256.length = s.buf256.length ∧
    t.osc.length = s.osc.length ∧
    (∀ k : Nat, t.buf8[k]? ≠ s.buf8[k]? → ∃ id : BitVec 8, id.toNat = k ∧ i = .bwr8 id) ∧
    (∀ k : Nat, t.buf32[k]? ≠ s.buf32[k]? → ∃ id : BitVec 8, id.toNat = k ∧ i = .bwr32 id) ∧
    (∀ k : Nat, t.buf256[k]? ≠ s.buf256[k]? → ∃ id : BitVec 8, id.toNat = k ∧ i = .bwr256 id) ∧
    (∀ k : Nat, t.osc[k]? ≠ s.osc[k]? → ∃ (id : BitVec 8) (src : Source) (fam : BitVec 4), id.toNat = k ∧
      i ∈ [.osetf id, .osetm id, .opm id, .orst id, .ostep id src fam, .ostepfm id src fam, .obeat id src fam])

/-! ### The host and the step (10_state.md, 20_memory.md, 70_reset_and_hazards.md) -/

/-- R16, R152: when the host's next access writes a word to CMD and the block has no fault, the step is the command the
word decodes to, in the state whose next access is the one after. -/
def Obligations.StepRunsTheDecodedCommand : Prop :=
  ∀ (s : State) (c : Word) (i : Instr) (rest : List Access), s.pending = .write 0x00 4 c :: rest →
    s.faulted = false → decode c = .ok i → step s = exec i { s with pending := rest, reply := none }

/-- R28, R43: what a host read of each register gives, with no side effect, and what a host write of each stores; the
registers stand at P_BASE plus their offset. -/
def Obligations.HostRegisterMap : Prop :=
  (∀ (s : State) (rest : List Access),
    ∀ e ∈ [(0x00, 0#32), (0x04, s.opa), (0x08, s.opb), (0x0C, s.opc), (0x10, s.opd), (0x14, s.ope), (0x18, s.opf),
        (0x1C, s.res0), (0x20, s.res1), (0x24, s.status &&& 0xF#32), (0x28, s.fcmd), (0x2C, 0#32)],
      s.pending = .read e.1 4 :: rest → step s = .next { s with pending := rest, reply := some e.2 }) ∧
  (∀ (s : State) (rest : List Access) (v : Word),
    let s' := { s with pending := rest, reply := none }
    (s.pending = .write 0x00 4 v :: rest → step s = issue v s') ∧
    ∀ e ∈ [(0x04, { s' with opa := v }), (0x08, { s' with opb := v }), (0x0C, { s' with opc := v }),
        (0x10, { s' with opd := v }), (0x14, { s' with ope := v }), (0x18, { s' with opf := v }),
        (0x1C, s'), (0x20, s'), (0x24, s'), (0x28, s'), (0x2C, s')],
      s.pending = .write e.1 4 v :: rest → step s = .next e.2) ∧
  (∀ (p : Config.Params) (offset n : Nat) (v : Word), memRead p (p.pBase + offset) n = some (.read offset n) ∧
    memWrite p (p.pBase + offset) n v = some (.write offset n v)) ∧
  (∀ (s : State) (k : Fin 8), (HostReg.ofOffset (4 * (k.val + 1))).map s.readHost = some (s.x k))

/-- R42: a host access that is not 32 bits wide, or not at one of the twelve word offsets, is refused, in every state;
every other access is answered. -/
def Obligations.UnadmittedAccessesAreRefused : Prop :=
  ∀ (s : State) (offset bytes : Nat) (v : Word) (rest : List Access),
    ((bytes ≠ 4 ∨ offset % 4 ≠ 0 ∨ 0x30 ≤ offset) →
      (s.pending = .read offset bytes :: rest → ∃ r, step s = .refused r) ∧
      (s.pending = .write offset bytes v :: rest → ∃ r, step s = .refused r)) ∧
    (bytes = 4 → offset % 4 = 0 → offset < 0x30 →
      (s.pending = .read offset bytes :: rest → ∃ t, step s = .next t) ∧
      (s.pending = .write offset bytes v :: rest → ∃ t, step s = .next t))

/-- R147: what reset leaves, but for the eight registers of R15, of which this says nothing. -/
def Obligations.ResetStateOfTheBlock : Prop :=
  State.reset.status = 0#32 ∧ State.reset.fcmd = 0#32 ∧
  State.reset.buf8.length = Config.params.numBuf8 ∧ State.reset.buf32.length = Config.params.numBuf32 ∧
  State.reset.buf256.length = Config.params.numBuf256 ∧ State.reset.osc.length = Config.params.numOsc ∧
  (∀ b ∈ State.reset.buf8, b.cursor = 0#32 ∧ ∀ k : Fin 8, b.data[k] = 0#32) ∧
  (∀ b ∈ State.reset.buf32, b.cursor = 0#32 ∧ ∀ k : Fin 32, b.data[k] = 0#32) ∧
  (∀ b ∈ State.reset.buf256, b.cursor = 0#32 ∧ ∀ k : Fin 256, b.data[k] = 0#32) ∧
  (∀ o ∈ State.reset.osc, o.frequency = 0#32 ∧ o.phase = 0#32 ∧ o.phaseModulation = 0#32 ∧
    o.lastPhaseModulation = 0#32 ∧ o.morph = 0#32)

/-- The reset access puts the block in the reset state and keeps the host's plan. The values of the eight registers of
R15 after it are the model's choice (log entries 1 and 8). -/
def Obligations.ResetAccessResetsTheBlock : Prop :=
  ∀ (s : State) (rest : List Access), s.pending = .reset :: rest → step s = .next { State.reset with pending := rest }

/-- R149 (a) to (d). -/
def Obligations.ConsequencesOfReset : Prop :=
  (∀ (id : BitVec 8) (s : State),
    (s.buf8[id.toNat]? = some (Buf.reset 8) → exec (.brd8 id) s = .next { s with res0 := 0#32 }) ∧
    (s.buf32[id.toNat]? = some (Buf.reset 32) → exec (.brd32 id) s = .next { s with res0 := 0#32 }) ∧
    (s.buf256[id.toNat]? = some (Buf.reset 256) → exec (.brd256 id) s = .next { s with res0 := 0#32 })) ∧
  (∀ (id : BitVec 8) (s : State), s.osc[id.toNat]? = some Osc.reset →
    (∀ i ∈ [Instr.ostep id .sine 0#4, .ostepfm id .sine 0#4, .obeat id .sine 0#4],
      exec i s = .next { s with res0 := Config.params.sine 0#12, res1 := 0#32 }) ∧
    (∀ (fam : BitVec 4) (t : State),
      ∀ i ∈ [Instr.ostep id .spline fam, .ostepfm id .spline fam, .obeat id .spline fam],
        exec i s = .next t → t.faulted = false → t.res0 = quinticResult Config.params fam 0#32 0#32 ∧ t.res1 = 0#32) ∧
    exec (.opm id) s = .next { s with
      osc := s.osc.set id.toNat { Osc.reset with phaseModulation := s.opa, lastPhaseModulation := s.opa } }) ∧
  (∀ s t : State, s.status = 0#32 → s.fcmd = 0#32 → step s = .next t → t.faulted = false →
    t.status = 0#32 ∧ t.fcmd = 0#32)

/-! ### The invariant and the strict machine -/

/-- Every step keeps the invariant: STATUS and FCMD hold one of the records of 10_state.md R19, R20 and 60_exceptions.md
R131, with a word in FCMD that can raise the recorded cause, and the instance counts are the parameters'. -/
def Obligations.StepKeepsTheInvariant : Prop :=
  ∀ s t : State, Invariant s → step s = .next t → Invariant t

/-- The reset state meets the invariant. -/
def Obligations.ResetMeetsTheInvariant : Prop := Invariant State.reset

/-- R15, R137: from reset the strict machine stops at a command that reads an operand register nothing has written, and at
a host read of an unwritten result register, and changes no STATUS; where it goes on, it makes the machine's own step. -/
def Obligations.StrictMachineStopsAtUnwrittenRegisters : Prop :=
  (∀ (t : Tracked) (c : Word) (i : Instr) (rest : List Access) (r : HostReg),
    t.state.pending = .write 0x00 4 c :: rest → t.state.faulted = false → decode c = .ok i →
    instancesExist i t.state = true → r ∈ operandsRead i → r ∉ t.written →
    ∃ r', r' ∈ operandsRead i ∧ r' ∉ t.written ∧ strictStep t = .fault (.unwrittenRegister r')) ∧
  (∀ (t : Tracked) (rest : List Access) (r : HostReg), r ∈ [.res0, .res1] → r ∉ t.written →
    t.state.pending = .read (HostReg.offset r) 4 :: rest → strictStep t = .fault (.unwrittenRegister r)) ∧
  (∀ t t' : Tracked, strictStep t = .next t' → step t.state = .next t'.state)

/-- R15: in a run the strict machine allows, the value of a register nothing has written since reset reaches nothing but
that register itself: two states that differ only in it step to states that still do, or that no longer differ. -/
def Obligations.UnwrittenRegistersReachNothing : Prop :=
  ∀ (t t' : Tracked) (r : HostReg) (v : Word), r ∈ unspecifiedAtReset → r ∉ t.written → strictStep t = .next t' →
    ∃ u : Tracked, strictStep { t with state := poke t.state r v } = .next u ∧ u.written = t'.written ∧
      (∃ w, u.state = poke t'.state r w) ∧ (r ∈ t'.written → u.state = t'.state)
end

