-- ==== Sys2Proof/Laws/Decode.lean ====
section
/-!
SUPPORT. The fields of an encoded word: each field is found where 30_encoding.md R49 to R54 put it, and the reserved bits
are 0.
-/

namespace Sys2Proof

/-! ### The opcode byte -/

/-- Whatever stands in bits 31:8, the opcode is the low byte (30_encoding.md R48). -/
theorem opcodeField_or_shift (op : BitVec 8) (x : Word) : opcodeField (op.setWidth 32 ||| x <<< 8) = op := by
  apply BitVec.eq_of_getLsbD_eq
  intro k hk
  have hk' : k < 32 := by omega
  simp [opcodeField, hk, hk']

/-- A mask that spares the opcode byte sees only the fields. -/
theorem or_shift_and_mask (op : BitVec 8) (x mask : Word) (hmask : mask.extractLsb' 0 8 = 0#8) :
    (op.setWidth 32 ||| x <<< 8) &&& mask = (x <<< 8) &&& mask := by
  apply BitVec.eq_of_getLsbD_eq
  intro k hk
  have h := congrArg (fun v => BitVec.getLsbD v k) hmask
  simp at h
  by_cases h8 : k < 8
  · simp [h h8]
  · simp [BitVec.getLsbD_of_ge op k (by omega)]

/-! ### Fields -/

theorem widthField_encoded (op : BitVec 8) (n : BitVec 5) :
    widthField (op.setWidth 32 ||| n.setWidth 32 <<< 8) = n := by
  apply BitVec.eq_of_getLsbD_eq
  intro k hk
  have h : 8 + k < 32 := by omega
  simp [widthField, hk, h]

theorem idField_encoded (op : BitVec 8) (id : BitVec 8) :
    idField (op.setWidth 32 ||| id.setWidth 32 <<< 8) = id := by
  apply BitVec.eq_of_getLsbD_eq
  intro k hk
  have h : 8 + k < 32 := by omega
  simp [idField, hk, h]

theorem familyField_encoded (op : BitVec 8) (fam : BitVec 4) :
    familyField (op.setWidth 32 ||| fam.setWidth 32 <<< 8) = fam := by
  apply BitVec.eq_of_getLsbD_eq
  intro k hk
  have h : 8 + k < 32 := by omega
  simp [familyField, hk, h]

/-- Fields above the instance number do not reach it. -/
theorem idField_encoded_above (op : BitVec 8) (id : BitVec 8) (x : Word) :
    idField (op.setWidth 32 ||| (id.setWidth 32 <<< 8 ||| x <<< 16)) = id := by
  apply BitVec.eq_of_getLsbD_eq
  intro k hk
  have h : 8 + k < 32 := by omega
  have h' : 8 + k < 16 := by omega
  simp [idField, hk, h, h']

theorem selectorField_encoded (op : BitVec 8) (id : BitVec 8) (sel : OscField) :
    selectorField (op.setWidth 32 ||| (id.setWidth 32 <<< 8 ||| sel.number <<< 16)) = sel.number.setWidth 3 := by
  apply BitVec.eq_of_getLsbD_eq
  intro k hk
  have h : 16 + k < 32 := by omega
  have hop := BitVec.getLsbD_of_ge op (16 + k) (by omega)
  have hid := BitVec.getLsbD_of_ge id (16 + k - 8) (by omega)
  simpa [selectorField, hk, h, hop, hid] using (BitVec.getLsbD_eq_getElem (by omega)).symm

@[simp] theorem ofSelector_number (sel : OscField) : OscField.ofSelector (sel.number.setWidth 3) = some sel := by
  cases sel <;> rfl

theorem stepFields_eq_shift (id : BitVec 8) (src : Source) (fam : BitVec 4) :
    stepFields id src fam = id.setWidth 32 <<< 8 ||| (src.number ||| fam.setWidth 32 <<< 4) <<< 16 := by
  simp only [stepFields, BitVec.shiftLeft_or_distrib, ← BitVec.shiftLeft_add, BitVec.or_assoc]

/-- The fields of a step command stand above the opcode byte. -/
theorem stepFields_eq_byte (id : BitVec 8) (src : Source) (fam : BitVec 4) :
    stepFields id src fam = (id.setWidth 32 ||| src.number <<< 8 ||| fam.setWidth 32 <<< 12) <<< 8 := by
  simp only [stepFields, BitVec.shiftLeft_or_distrib, ← BitVec.shiftLeft_add]

/-- The fields of a read command stand above the opcode byte. -/
theorem readFields_eq_byte (id : BitVec 8) (sel : OscField) :
    id.setWidth 32 <<< 8 ||| sel.number <<< 16 = (id.setWidth 32 ||| sel.number <<< 8) <<< 8 := by
  simp only [BitVec.shiftLeft_or_distrib, ← BitVec.shiftLeft_add]

theorem sourceField_encoded (op : BitVec 8) (id : BitVec 8) (src : Source) (fam : BitVec 4) :
    sourceField (op.setWidth 32 ||| stepFields id src fam) = src := by
  cases src <;> simp [sourceField, stepFields, Source.number]

theorem stepFamilyField_encoded (op : BitVec 8) (id : BitVec 8) (src : Source) (fam : BitVec 4) :
    stepFamilyField (op.setWidth 32 ||| stepFields id src fam) = fam := by
  apply BitVec.eq_of_getLsbD_eq
  intro k hk
  have h : 20 + k < 32 := by omega
  have hop := BitVec.getLsbD_of_ge op (20 + k) (by omega)
  have hid := BitVec.getLsbD_of_ge id (20 + k - 8) (by omega)
  have hbits : ∀ j < 4, (65536#32).getLsbD (20 + j) = false := by decide
  have hsrc : (65536#32)[20 + k] = false := by rw [← BitVec.getLsbD_eq_getElem]; exact hbits k hk
  cases src <;> simp [stepFamilyField, stepFields, Source.number, hk, h, hop, hid, hsrc]

/-! ### Reserved bits -/

theorem reservedMask_spares_opcode (format : Format) : format.reservedMask.extractLsb' 0 8 = 0#8 := by
  cases format <;> decide

theorem width_reserved (n : BitVec 5) : (n.setWidth 32 <<< 8) &&& Format.s.reservedMask = 0#32 := by
  revert n; decide

theorem id_reserved (id : BitVec 8) : (id.setWidth 32 <<< 8) &&& Format.i.reservedMask = 0#32 := by
  revert id; decide

theorem family_reserved (fam : BitVec 4) : (fam.setWidth 32 <<< 8) &&& Format.f.reservedMask = 0#32 := by
  revert fam; decide

theorem id_reserved_step (id : BitVec 8) : (id.setWidth 32 <<< 8) &&& Format.o.reservedMask = 0#32 := by
  revert id; decide

theorem id_reserved_read (id : BitVec 8) : (id.setWidth 32 <<< 8) &&& Format.r.reservedMask = 0#32 := by
  revert id; decide

theorem step_reserved (id : BitVec 8) (src : Source) (fam : BitVec 4) :
    stepFields id src fam &&& Format.o.reservedMask = 0#32 := by
  have hs : (src.number ||| fam.setWidth 32 <<< 4) <<< 16 &&& Format.o.reservedMask = 0#32 := by
    cases src <;> revert fam <;> decide
  rw [stepFields_eq_shift, BitVec.and_comm, BitVec.and_or_distrib_left, BitVec.and_comm, id_reserved_step,
    BitVec.and_comm, hs]
  rfl

theorem read_reserved (id : BitVec 8) (sel : OscField) :
    (id.setWidth 32 <<< 8 ||| sel.number <<< 16) &&& Format.r.reservedMask = 0#32 := by
  have hs : sel.number <<< 16 &&& Format.r.reservedMask = 0#32 := by cases sel <;> decide
  rw [BitVec.and_comm, BitVec.and_or_distrib_left, BitVec.and_comm, id_reserved_read, BitVec.and_comm, hs]
  rfl

end Sys2Proof
end

