-- ==== Sys2Proof/Laws/State.lean ====
section
/-!
SUPPORT. One lemma per field per update of the state, so that no proof unfolds a record update.
-/

namespace Sys2Proof
namespace Machine

section
variable (s : State) (v : Word)

@[simp] theorem State.setRes0_opa : (s.setRes0 v).opa = s.opa := rfl
@[simp] theorem State.setRes0_opb : (s.setRes0 v).opb = s.opb := rfl
@[simp] theorem State.setRes0_opc : (s.setRes0 v).opc = s.opc := rfl
@[simp] theorem State.setRes0_opd : (s.setRes0 v).opd = s.opd := rfl
@[simp] theorem State.setRes0_ope : (s.setRes0 v).ope = s.ope := rfl
@[simp] theorem State.setRes0_opf : (s.setRes0 v).opf = s.opf := rfl
@[simp] theorem State.setRes0_res0 : (s.setRes0 v).res0 = v := rfl
@[simp] theorem State.setRes0_res1 : (s.setRes0 v).res1 = s.res1 := rfl
@[simp] theorem State.setRes0_status : (s.setRes0 v).status = s.status := rfl
@[simp] theorem State.setRes0_fcmd : (s.setRes0 v).fcmd = s.fcmd := rfl
@[simp] theorem State.setRes0_buf8 : (s.setRes0 v).buf8 = s.buf8 := rfl
@[simp] theorem State.setRes0_buf32 : (s.setRes0 v).buf32 = s.buf32 := rfl
@[simp] theorem State.setRes0_buf256 : (s.setRes0 v).buf256 = s.buf256 := rfl
@[simp] theorem State.setRes0_osc : (s.setRes0 v).osc = s.osc := rfl
@[simp] theorem State.setRes0_pending : (s.setRes0 v).pending = s.pending := rfl
@[simp] theorem State.setRes0_reply : (s.setRes0 v).reply = s.reply := rfl
@[simp] theorem State.setRes0_faulted : (s.setRes0 v).faulted = s.faulted := rfl

end

section
variable (s : State) (v w : Word)

@[simp] theorem State.setResults_opa : (s.setResults v w).opa = s.opa := rfl
@[simp] theorem State.setResults_opb : (s.setResults v w).opb = s.opb := rfl
@[simp] theorem State.setResults_opc : (s.setResults v w).opc = s.opc := rfl
@[simp] theorem State.setResults_opd : (s.setResults v w).opd = s.opd := rfl
@[simp] theorem State.setResults_ope : (s.setResults v w).ope = s.ope := rfl
@[simp] theorem State.setResults_opf : (s.setResults v w).opf = s.opf := rfl
@[simp] theorem State.setResults_res0 : (s.setResults v w).res0 = v := rfl
@[simp] theorem State.setResults_res1 : (s.setResults v w).res1 = w := rfl
@[simp] theorem State.setResults_status : (s.setResults v w).status = s.status := rfl
@[simp] theorem State.setResults_fcmd : (s.setResults v w).fcmd = s.fcmd := rfl
@[simp] theorem State.setResults_buf8 : (s.setResults v w).buf8 = s.buf8 := rfl
@[simp] theorem State.setResults_buf32 : (s.setResults v w).buf32 = s.buf32 := rfl
@[simp] theorem State.setResults_buf256 : (s.setResults v w).buf256 = s.buf256 := rfl
@[simp] theorem State.setResults_osc : (s.setResults v w).osc = s.osc := rfl
@[simp] theorem State.setResults_pending : (s.setResults v w).pending = s.pending := rfl
@[simp] theorem State.setResults_reply : (s.setResults v w).reply = s.reply := rfl
@[simp] theorem State.setResults_faulted : (s.setResults v w).faulted = s.faulted := rfl

end

section
variable (s : State) (id : BitVec 8) (b : Buf 8)

@[simp] theorem State.setBuf8_opa : (s.setBuf8 id b).opa = s.opa := rfl
@[simp] theorem State.setBuf8_opb : (s.setBuf8 id b).opb = s.opb := rfl
@[simp] theorem State.setBuf8_opc : (s.setBuf8 id b).opc = s.opc := rfl
@[simp] theorem State.setBuf8_opd : (s.setBuf8 id b).opd = s.opd := rfl
@[simp] theorem State.setBuf8_ope : (s.setBuf8 id b).ope = s.ope := rfl
@[simp] theorem State.setBuf8_opf : (s.setBuf8 id b).opf = s.opf := rfl
@[simp] theorem State.setBuf8_res0 : (s.setBuf8 id b).res0 = s.res0 := rfl
@[simp] theorem State.setBuf8_res1 : (s.setBuf8 id b).res1 = s.res1 := rfl
@[simp] theorem State.setBuf8_status : (s.setBuf8 id b).status = s.status := rfl
@[simp] theorem State.setBuf8_fcmd : (s.setBuf8 id b).fcmd = s.fcmd := rfl
@[simp] theorem State.setBuf8_buf8 : (s.setBuf8 id b).buf8 = s.buf8.set id.toNat b := rfl
@[simp] theorem State.setBuf8_buf32 : (s.setBuf8 id b).buf32 = s.buf32 := rfl
@[simp] theorem State.setBuf8_buf256 : (s.setBuf8 id b).buf256 = s.buf256 := rfl
@[simp] theorem State.setBuf8_osc : (s.setBuf8 id b).osc = s.osc := rfl
@[simp] theorem State.setBuf8_pending : (s.setBuf8 id b).pending = s.pending := rfl
@[simp] theorem State.setBuf8_reply : (s.setBuf8 id b).reply = s.reply := rfl
@[simp] theorem State.setBuf8_faulted : (s.setBuf8 id b).faulted = s.faulted := rfl

end

section
variable (s : State) (id : BitVec 8) (b : Buf 32)

@[simp] theorem State.setBuf32_opa : (s.setBuf32 id b).opa = s.opa := rfl
@[simp] theorem State.setBuf32_opb : (s.setBuf32 id b).opb = s.opb := rfl
@[simp] theorem State.setBuf32_opc : (s.setBuf32 id b).opc = s.opc := rfl
@[simp] theorem State.setBuf32_opd : (s.setBuf32 id b).opd = s.opd := rfl
@[simp] theorem State.setBuf32_ope : (s.setBuf32 id b).ope = s.ope := rfl
@[simp] theorem State.setBuf32_opf : (s.setBuf32 id b).opf = s.opf := rfl
@[simp] theorem State.setBuf32_res0 : (s.setBuf32 id b).res0 = s.res0 := rfl
@[simp] theorem State.setBuf32_res1 : (s.setBuf32 id b).res1 = s.res1 := rfl
@[simp] theorem State.setBuf32_status : (s.setBuf32 id b).status = s.status := rfl
@[simp] theorem State.setBuf32_fcmd : (s.setBuf32 id b).fcmd = s.fcmd := rfl
@[simp] theorem State.setBuf32_buf8 : (s.setBuf32 id b).buf8 = s.buf8 := rfl
@[simp] theorem State.setBuf32_buf32 : (s.setBuf32 id b).buf32 = s.buf32.set id.toNat b := rfl
@[simp] theorem State.setBuf32_buf256 : (s.setBuf32 id b).buf256 = s.buf256 := rfl
@[simp] theorem State.setBuf32_osc : (s.setBuf32 id b).osc = s.osc := rfl
@[simp] theorem State.setBuf32_pending : (s.setBuf32 id b).pending = s.pending := rfl
@[simp] theorem State.setBuf32_reply : (s.setBuf32 id b).reply = s.reply := rfl
@[simp] theorem State.setBuf32_faulted : (s.setBuf32 id b).faulted = s.faulted := rfl

end

section
variable (s : State) (id : BitVec 8) (b : Buf 256)

@[simp] theorem State.setBuf256_opa : (s.setBuf256 id b).opa = s.opa := rfl
@[simp] theorem State.setBuf256_opb : (s.setBuf256 id b).opb = s.opb := rfl
@[simp] theorem State.setBuf256_opc : (s.setBuf256 id b).opc = s.opc := rfl
@[simp] theorem State.setBuf256_opd : (s.setBuf256 id b).opd = s.opd := rfl
@[simp] theorem State.setBuf256_ope : (s.setBuf256 id b).ope = s.ope := rfl
@[simp] theorem State.setBuf256_opf : (s.setBuf256 id b).opf = s.opf := rfl
@[simp] theorem State.setBuf256_res0 : (s.setBuf256 id b).res0 = s.res0 := rfl
@[simp] theorem State.setBuf256_res1 : (s.setBuf256 id b).res1 = s.res1 := rfl
@[simp] theorem State.setBuf256_status : (s.setBuf256 id b).status = s.status := rfl
@[simp] theorem State.setBuf256_fcmd : (s.setBuf256 id b).fcmd = s.fcmd := rfl
@[simp] theorem State.setBuf256_buf8 : (s.setBuf256 id b).buf8 = s.buf8 := rfl
@[simp] theorem State.setBuf256_buf32 : (s.setBuf256 id b).buf32 = s.buf32 := rfl
@[simp] theorem State.setBuf256_buf256 : (s.setBuf256 id b).buf256 = s.buf256.set id.toNat b := rfl
@[simp] theorem State.setBuf256_osc : (s.setBuf256 id b).osc = s.osc := rfl
@[simp] theorem State.setBuf256_pending : (s.setBuf256 id b).pending = s.pending := rfl
@[simp] theorem State.setBuf256_reply : (s.setBuf256 id b).reply = s.reply := rfl
@[simp] theorem State.setBuf256_faulted : (s.setBuf256 id b).faulted = s.faulted := rfl

end

section
variable (s : State) (id : BitVec 8) (o : Osc)

@[simp] theorem State.setOsc_opa : (s.setOsc id o).opa = s.opa := rfl
@[simp] theorem State.setOsc_opb : (s.setOsc id o).opb = s.opb := rfl
@[simp] theorem State.setOsc_opc : (s.setOsc id o).opc = s.opc := rfl
@[simp] theorem State.setOsc_opd : (s.setOsc id o).opd = s.opd := rfl
@[simp] theorem State.setOsc_ope : (s.setOsc id o).ope = s.ope := rfl
@[simp] theorem State.setOsc_opf : (s.setOsc id o).opf = s.opf := rfl
@[simp] theorem State.setOsc_res0 : (s.setOsc id o).res0 = s.res0 := rfl
@[simp] theorem State.setOsc_res1 : (s.setOsc id o).res1 = s.res1 := rfl
@[simp] theorem State.setOsc_status : (s.setOsc id o).status = s.status := rfl
@[simp] theorem State.setOsc_fcmd : (s.setOsc id o).fcmd = s.fcmd := rfl
@[simp] theorem State.setOsc_buf8 : (s.setOsc id o).buf8 = s.buf8 := rfl
@[simp] theorem State.setOsc_buf32 : (s.setOsc id o).buf32 = s.buf32 := rfl
@[simp] theorem State.setOsc_buf256 : (s.setOsc id o).buf256 = s.buf256 := rfl
@[simp] theorem State.setOsc_osc : (s.setOsc id o).osc = s.osc.set id.toNat o := rfl
@[simp] theorem State.setOsc_pending : (s.setOsc id o).pending = s.pending := rfl
@[simp] theorem State.setOsc_reply : (s.setOsc id o).reply = s.reply := rfl
@[simp] theorem State.setOsc_faulted : (s.setOsc id o).faulted = s.faulted := rfl

end

section
variable (s : State) (v : Option Word)

@[simp] theorem State.answer_opa : (s.answer v).opa = s.opa := rfl
@[simp] theorem State.answer_opb : (s.answer v).opb = s.opb := rfl
@[simp] theorem State.answer_opc : (s.answer v).opc = s.opc := rfl
@[simp] theorem State.answer_opd : (s.answer v).opd = s.opd := rfl
@[simp] theorem State.answer_ope : (s.answer v).ope = s.ope := rfl
@[simp] theorem State.answer_opf : (s.answer v).opf = s.opf := rfl
@[simp] theorem State.answer_res0 : (s.answer v).res0 = s.res0 := rfl
@[simp] theorem State.answer_res1 : (s.answer v).res1 = s.res1 := rfl
@[simp] theorem State.answer_status : (s.answer v).status = s.status := rfl
@[simp] theorem State.answer_fcmd : (s.answer v).fcmd = s.fcmd := rfl
@[simp] theorem State.answer_buf8 : (s.answer v).buf8 = s.buf8 := rfl
@[simp] theorem State.answer_buf32 : (s.answer v).buf32 = s.buf32 := rfl
@[simp] theorem State.answer_buf256 : (s.answer v).buf256 = s.buf256 := rfl
@[simp] theorem State.answer_osc : (s.answer v).osc = s.osc := rfl
@[simp] theorem State.answer_pending : (s.answer v).pending = s.pending := rfl
@[simp] theorem State.answer_reply : (s.answer v).reply = v := rfl
@[simp] theorem State.answer_faulted : (s.answer v).faulted = s.faulted := rfl

end

section
variable (s : State) (accesses : List Access)

@[simp] theorem State.withHost_opa : (s.withHost accesses).opa = s.opa := rfl
@[simp] theorem State.withHost_opb : (s.withHost accesses).opb = s.opb := rfl
@[simp] theorem State.withHost_opc : (s.withHost accesses).opc = s.opc := rfl
@[simp] theorem State.withHost_opd : (s.withHost accesses).opd = s.opd := rfl
@[simp] theorem State.withHost_ope : (s.withHost accesses).ope = s.ope := rfl
@[simp] theorem State.withHost_opf : (s.withHost accesses).opf = s.opf := rfl
@[simp] theorem State.withHost_res0 : (s.withHost accesses).res0 = s.res0 := rfl
@[simp] theorem State.withHost_res1 : (s.withHost accesses).res1 = s.res1 := rfl
@[simp] theorem State.withHost_status : (s.withHost accesses).status = s.status := rfl
@[simp] theorem State.withHost_fcmd : (s.withHost accesses).fcmd = s.fcmd := rfl
@[simp] theorem State.withHost_buf8 : (s.withHost accesses).buf8 = s.buf8 := rfl
@[simp] theorem State.withHost_buf32 : (s.withHost accesses).buf32 = s.buf32 := rfl
@[simp] theorem State.withHost_buf256 : (s.withHost accesses).buf256 = s.buf256 := rfl
@[simp] theorem State.withHost_osc : (s.withHost accesses).osc = s.osc := rfl
@[simp] theorem State.withHost_pending : (s.withHost accesses).pending = accesses := rfl
@[simp] theorem State.withHost_reply : (s.withHost accesses).reply = s.reply := rfl
@[simp] theorem State.withHost_faulted : (s.withHost accesses).faulted = s.faulted := rfl

end

section
variable (s : State) (cause : Cause) (c : Word)

@[simp] theorem State.raise_opa : (s.raise cause c).opa = s.opa := by unfold State.raise; split <;> rfl
@[simp] theorem State.raise_opb : (s.raise cause c).opb = s.opb := by unfold State.raise; split <;> rfl
@[simp] theorem State.raise_opc : (s.raise cause c).opc = s.opc := by unfold State.raise; split <;> rfl
@[simp] theorem State.raise_opd : (s.raise cause c).opd = s.opd := by unfold State.raise; split <;> rfl
@[simp] theorem State.raise_ope : (s.raise cause c).ope = s.ope := by unfold State.raise; split <;> rfl
@[simp] theorem State.raise_opf : (s.raise cause c).opf = s.opf := by unfold State.raise; split <;> rfl
@[simp] theorem State.raise_res0 : (s.raise cause c).res0 = s.res0 := by unfold State.raise; split <;> rfl
@[simp] theorem State.raise_res1 : (s.raise cause c).res1 = s.res1 := by unfold State.raise; split <;> rfl
@[simp] theorem State.raise_buf8 : (s.raise cause c).buf8 = s.buf8 := by unfold State.raise; split <;> rfl
@[simp] theorem State.raise_buf32 : (s.raise cause c).buf32 = s.buf32 := by unfold State.raise; split <;> rfl
@[simp] theorem State.raise_buf256 : (s.raise cause c).buf256 = s.buf256 := by unfold State.raise; split <;> rfl
@[simp] theorem State.raise_osc : (s.raise cause c).osc = s.osc := by unfold State.raise; split <;> rfl
@[simp] theorem State.raise_pending : (s.raise cause c).pending = s.pending := by unfold State.raise; split <;> rfl
@[simp] theorem State.raise_reply : (s.raise cause c).reply = s.reply := by unfold State.raise; split <;> rfl

/-- A fault while none is recorded sets FAULT, CAUSE and FCMD (60_exceptions.md R133). -/
theorem State.raise_eq {s : State} (h : s.faulted = false) (cause : Cause) (c : Word) :
    s.raise cause c = { s with status := faultStatus s.status cause, fcmd := c } := by
  simp [State.raise, h]

/-- A fault while one is recorded changes nothing (60_exceptions.md R133, R136). -/
theorem State.raise_of_faulted {s : State} (h : s.faulted = true) (cause : Cause) (c : Word) :
    s.raise cause c = s := by
  simp [State.raise, h]

end

section
variable (s : State) (r : HostReg) (v : Word)

@[simp] theorem State.writeHost_res0 : (s.writeHost r v).res0 = s.res0 := by cases r <;> rfl
@[simp] theorem State.writeHost_res1 : (s.writeHost r v).res1 = s.res1 := by cases r <;> rfl
@[simp] theorem State.writeHost_status : (s.writeHost r v).status = s.status := by cases r <;> rfl
@[simp] theorem State.writeHost_fcmd : (s.writeHost r v).fcmd = s.fcmd := by cases r <;> rfl
@[simp] theorem State.writeHost_buf8 : (s.writeHost r v).buf8 = s.buf8 := by cases r <;> rfl
@[simp] theorem State.writeHost_buf32 : (s.writeHost r v).buf32 = s.buf32 := by cases r <;> rfl
@[simp] theorem State.writeHost_buf256 : (s.writeHost r v).buf256 = s.buf256 := by cases r <;> rfl
@[simp] theorem State.writeHost_osc : (s.writeHost r v).osc = s.osc := by cases r <;> rfl
@[simp] theorem State.writeHost_pending : (s.writeHost r v).pending = s.pending := by cases r <;> rfl
@[simp] theorem State.writeHost_reply : (s.writeHost r v).reply = s.reply := by cases r <;> rfl
@[simp] theorem State.writeHost_faulted : (s.writeHost r v).faulted = s.faulted := by cases r <;> rfl

end

/-- Two states with the same fields are the same state. -/
theorem State.ext_fields {s t : State} (hops : (s.opa, s.opb, s.opc, s.opd, s.ope, s.opf) = (t.opa, t.opb, t.opc, t.opd, t.ope, t.opf))
    (hres : (s.res0, s.res1, s.status, s.fcmd) = (t.res0, t.res1, t.status, t.fcmd))
    (hinst : (s.buf8, s.buf32, s.buf256, s.osc) = (t.buf8, t.buf32, t.buf256, t.osc))
    (hhost : (s.pending, s.reply) = (t.pending, t.reply)) : s = t := by
  cases s; cases t; simp_all

end Machine
end Sys2Proof
end

