-- ==== Sys2Proof/Laws/Ops.lean ====
section
/-!
SUPPORT. What each shared operation can do, said once: completing a command, finding an instance, taking a fault, reading
and writing a buffer.
-/

namespace Sys2Proof
namespace Machine

/-! ### Completing a command -/

@[simp] theorem complete_ok (c : Word) (s t : State) : complete c s (.ok t) = .next t := rfl

@[simp] theorem complete_error (c : Word) (s : State) (cause : Cause) :
    complete c s (.error cause) = .next (s.raise cause c) := rfl

/-- A completed command answers with its effect, or with the state in which it was issued and a fault taken. -/
theorem complete_cases {c : Word} {s t : State} {effect : Except Cause State}
    (h : complete c s effect = .next t) :
    effect = .ok t ∨ ∃ cause, effect = .error cause ∧ t = s.raise cause c := by
  cases effect with
  | ok u => left; simpa using h
  | error cause => exact .inr ⟨cause, rfl, by simpa using h.symm⟩

/-! ### Instances -/

theorem instanceAt_of_some {α : Type} {xs : List α} {id : BitVec 8} {x : α} (h : xs[id.toNat]? = some x) :
    instanceAt xs id = .ok x := by
  simp [instanceAt, h]

theorem instanceAt_of_le {α : Type} {xs : List α} {id : BitVec 8} (h : xs.length ≤ id.toNat) :
    instanceAt xs id = .error .badInstance := by
  simp [instanceAt, List.getElem?_eq_none h]

/-- An instance is found where the list has one, and otherwise the lookup is BAD_INSTANCE (60_exceptions.md R131). -/
theorem instanceAt_cases {α : Type} (xs : List α) (id : BitVec 8) :
    (∃ x, xs[id.toNat]? = some x ∧ instanceAt xs id = .ok x) ∨
      (xs.length ≤ id.toNat ∧ instanceAt xs id = .error .badInstance) := by
  cases h : xs[id.toNat]? with
  | some x => exact .inl ⟨x, rfl, instanceAt_of_some h⟩
  | none =>
    have hle : xs.length ≤ id.toNat := by simpa using h
    exact .inr ⟨hle, instanceAt_of_le hle⟩

/-! ### The fault word -/

theorem faultStatus_fault (status : Word) (cause : Cause) : (faultStatus status cause).getLsbD 0 = true := by
  cases cause <;> simp [faultStatus]

theorem faultStatus_cause (status : Word) (cause : Cause) :
    (faultStatus status cause).extractLsb' 1 3 = cause.code := by
  cases cause <;> (apply BitVec.eq_of_getLsbD_eq; intro i hi; interval_cases i <;> simp [faultStatus, Cause.code])

/-- A fault from STATUS = 0 leaves 3, 5 or 7 (10_state.md R19). -/
theorem faultStatus_zero (cause : Cause) :
    faultStatus 0#32 cause = (match cause with | .illegal => 3#32 | .badInstance => 5#32 | .tableRange => 7#32) := by
  cases cause <;> decide

theorem State.raise_faulted (s : State) (cause : Cause) (c : Word) : (s.raise cause c).faulted = true := by
  by_cases h : s.faulted = true
  · rwa [State.raise_of_faulted h]
  · rw [State.raise_eq (by simpa using h)]
    exact faultStatus_fault _ _

/-! ### Buffers (42_buffer.md R76, R77) -/

section
variable {d : Nat} [NeZero d]

@[simp] theorem slot_val (position : Word) : (slot d position).val = position.toNat % d := rfl

@[simp] theorem Buf.write_cursor (b : Buf d) (v : Word) : (b.write v).cursor = b.cursor + 1#32 := rfl

/-- A slot after a write. -/
theorem Buf.write_slot (b : Buf d) (v : Word) (k : Nat) (hk : k < d) :
    (b.write v).data[k] = if b.cursor.toNat % d = k then v else b.data[k] := by
  simp [Buf.write, Vector.getElem_set]

/-- A read gives the word in the slot of the cursor plus the inverted offset. -/
theorem Buf.read_eq (b : Buf d) (k : Word) :
    b.read k = b.data[(b.cursor + ~~~k).toNat % d]'(Nat.mod_lt _ (Nat.pos_of_neZero d)) := rfl

end

end Machine
end Sys2Proof
end

