-- ==== Sys2Proof/Laws/Spline.lean ====
section
/-!
SUPPORT. What the spline evaluator, the sample sources and a step command can do, said once.
-/

namespace Sys2Proof
namespace Machine

section
variable (p : Config.Params) (fam : BitVec 4) (phase morph : Word) (io : Option Word) (form : DeltaForm)

/-- A family that does not exist is BAD_INSTANCE, before any other check (44_spline.md R97). -/
theorem splineEval_badInstance (h : p.numFam ≤ fam.toNat) :
    splineEval p fam phase morph io form = .error .badInstance := if_pos h

/-- A window outside the family's tables is TABLE_RANGE (44_spline.md R100). -/
theorem splineEval_tableRange (hfam : fam.toNat < p.numFam) (h : inRange p fam phase morph = false) :
    splineEval p fam phase morph io form = .error .tableRange := by
  rw [splineEval, if_neg (by omega), if_pos h]

/-- Inside the tables the evaluator answers (44_spline.md R97). -/
theorem splineEval_inRange (hfam : fam.toNat < p.numFam) (h : inRange p fam phase morph = true) :
    splineEval p fam phase morph io form =
      .ok (splineSample p (splineWindow p fam phase morph) (phaseFraction phase) io,
        deltaOut form ((splineWindow p fam phase morph).m3 - (splineWindow p fam phase morph).m2)) := by
  rw [splineEval, if_neg (by omega), if_neg (by simp [h])]

/-- The three things the evaluator can do. -/
theorem splineEval_cases :
    (p.numFam ≤ fam.toNat ∧ splineEval p fam phase morph io form = .error .badInstance) ∨
    (fam.toNat < p.numFam ∧ inRange p fam phase morph = false ∧
      splineEval p fam phase morph io form = .error .tableRange) ∨
    (fam.toNat < p.numFam ∧ inRange p fam phase morph = true ∧
      splineEval p fam phase morph io form =
        .ok (splineSample p (splineWindow p fam phase morph) (phaseFraction phase) io,
          deltaOut form ((splineWindow p fam phase morph).m3 - (splineWindow p fam phase morph).m2))) := by
  rcases Nat.lt_or_ge fam.toNat p.numFam with hfam | hfam
  · cases h : inRange p fam phase morph with
    | false => exact .inr (.inl ⟨hfam, rfl, splineEval_tableRange p fam phase morph io form hfam h⟩)
    | true => exact .inr (.inr ⟨hfam, rfl, splineEval_inRange p fam phase morph io form hfam h⟩)
  · exact .inl ⟨hfam, splineEval_badInstance p fam phase morph io form hfam⟩

end

section
variable {p : Config.Params} {c : Word} {id : BitVec 8} {src : Source} {fam : BitVec 4} {newPhase : Osc → Word}
  {s : State} {o : Osc}

/-- A step whose sample source answers (45_osc.md R121). -/
theorem oscStep_ok {y : Word} (ho : s.osc[id.toNat]? = some o) (hy : oscEval p src fam (newPhase o) o.morph = .ok y) :
    oscStep p c id src fam newPhase s =
      .next ((s.setOsc id { o with phase := newPhase o }).setResults y (newPhase o)) := by
  simp only [oscStep, instanceAt_of_some ho, bind, Except.bind, hy, complete_ok]

/-- A step whose sample source faults writes nothing (45_osc.md R121). -/
theorem oscStep_error {cause : Cause} (ho : s.osc[id.toNat]? = some o)
    (hy : oscEval p src fam (newPhase o) o.morph = .error cause) :
    oscStep p c id src fam newPhase s = .next (s.raise cause c) := by
  simp only [oscStep, instanceAt_of_some ho, bind, Except.bind, hy, complete_error]

/-- A step on an oscillator that does not exist (60_exceptions.md R131). -/
theorem oscStep_badInstance (h : s.osc.length ≤ id.toNat) :
    oscStep p c id src fam newPhase s = .next (s.raise .badInstance c) := by
  simp only [oscStep, instanceAt_of_le h, bind, Except.bind, complete_error]

end

end Machine
end Sys2Proof
end

