-- ==== Sys2Proof/Laws/Exec.lean ====
section
/-!
SUPPORT. What any command and any host access can do, said once.
-/

namespace Sys2Proof
namespace Machine

/-- A state that a command can reach from `s` by its own effect: results, buffers and oscillators only. -/
def SameButResultsAndInstances (s t : State) : Prop :=
  t = { s with
    res0 := t.res0, res1 := t.res1, buf8 := t.buf8, buf32 := t.buf32, buf256 := t.buf256, osc := t.osc }

/-- Every command completes, with an effect on results, buffers and oscillators only or with a fault
(60_exceptions.md R134). -/
theorem exec_complete (i : Instr) (s : State) :
    ∃ effect, exec i s = complete (encode i) s effect ∧
      ∀ t, effect = .ok t → SameButResultsAndInstances s t := by
  have looked {α : Type} (xs : List α) (id : BitVec 8) (f : α → State)
      (hf : ∀ x, SameButResultsAndInstances s (f x)) (t : State) (h : (instanceAt xs id).map f = .ok t) :
      SameButResultsAndInstances s t := by
    cases hx : instanceAt xs id with
    | error cause => rw [hx] at h; cases h
    | ok x => rw [hx] at h; cases h; exact hf x
  have evaluated (e : Except Cause (Word × Word)) (t : State)
      (h : (e.map fun r => s.setResults r.1 r.2) = .ok t) : SameButResultsAndInstances s t := by
    cases e <;> cases h; rfl
  have stepped (id : BitVec 8) (src : Source) (fam : BitVec 4) (newPhase : Osc → Word) (t : State)
      (h : (do
        let o ← instanceAt s.osc id
        let y ← oscEval Config.params src fam (newPhase o) o.morph
        .ok ((s.setOsc id { o with phase := newPhase o }).setResults y (newPhase o))) = Except.ok t) :
      SameButResultsAndInstances s t := by
    cases hx : instanceAt s.osc id with
    | error cause => rw [hx] at h; cases h
    | ok o =>
      rw [hx] at h
      simp only [bind, Except.bind] at h
      split at h <;> cases h
      rfl
  cases i with
  | bwr8 id | brd8 id | bwr32 id | brd32 id | bwr256 id | brd256 id => exact ⟨_, rfl, looked _ _ _ fun _ => rfl⟩
  | osetf id | osetm id | opm id | orst id | ord id sel => exact ⟨_, rfl, looked _ _ _ fun _ => rfl⟩
  | qevalRaw fam | qevalSgn fam | qevaliRaw fam | qevaliSgn fam => exact ⟨_, rfl, evaluated _⟩
  | ostep id src fam | ostepfm id src fam | obeat id src fam => exact ⟨_, rfl, stepped id src fam _⟩
  | _ => exact ⟨.ok _, rfl, fun t h => by cases h; rfl⟩

/-- An answered host read names a register and changes only the reply (20_memory.md R42, R43). -/
theorem hostAccess_read {offset bytes : Nat} {s t : State} (h : hostAccess (.read offset bytes) s = .next t) :
    ∃ r, HostReg.ofOffset offset = some r ∧ bytes = 4 ∧ t = s.answer (some (s.readHost r)) := by
  simp only [hostAccess, admitted] at h
  by_cases hb : bytes = 4
  · simp only [hb, ne_eq, not_true, if_false] at h
    cases ho : HostReg.ofOffset offset with
    | none => rw [ho] at h; cases h
    | some r => rw [ho] at h; exact ⟨r, rfl, hb, (Host.Outcome.next.inj h).symm⟩
  · simp only [ne_eq, hb, not_false_eq_true, if_true] at h
    cases h

/-- An answered host write issues a command or stores to a register (20_memory.md R42, R43). -/
theorem hostAccess_write {offset bytes : Nat} {v : Word} {s t : State}
    (h : hostAccess (.write offset bytes v) s = .next t) :
    bytes = 4 ∧ ((HostReg.ofOffset offset = some .cmd ∧ issue v s = .next t) ∨
      ∃ r, HostReg.ofOffset offset = some r ∧ r ≠ .cmd ∧ t = s.writeHost r v) := by
  simp only [hostAccess, admitted] at h
  by_cases hb : bytes = 4
  · simp only [hb, ne_eq, not_true, if_false] at h
    cases ho : HostReg.ofOffset offset with
    | none => rw [ho] at h; cases h
    | some r =>
      rw [ho] at h
      refine ⟨hb, ?_⟩
      cases r with
      | cmd => exact .inl ⟨rfl, h⟩
      | _ => exact .inr ⟨_, rfl, by simp, (Host.Outcome.next.inj h).symm⟩
  · simp only [ne_eq, hb, not_false_eq_true, if_true] at h
    cases h

end Machine
end Sys2Proof
end

