-- ==== Sys2Proof/Laws/Fixed.lean ====
section
/-!
SUPPORT. The fixed-point helpers as integer arithmetic.
-/

namespace Sys2Proof
namespace Machine

/-- A narrowed integer that fits is read back unchanged. -/
theorem trunc32_toInt {x : Int} (hlo : -2 ^ 31 ≤ x) (hhi : x < 2 ^ 31) : (trunc32 x).toInt = x := by
  simp only [trunc32, BitVec.toInt_ofInt]
  rw [Int.bmod_eq_of_le] <;> omega

@[simp] theorem trunc32_of_toInt (w : Word) : trunc32 w.toInt = w := by simp [trunc32]

/-- `mul` by floor division (41_arith.md R64). -/
theorem mul_eq_div (a b : Word) (n : Nat) : mul a b n = trunc32 (a.toInt * b.toInt / 2 ^ n) := by
  simp [mul, Int.shiftRight_eq_div_pow]

end Machine
end Sys2Proof
end

