-- ==== Sys2Proof/Laws/PerInstr.lean ====
section
/-!
SUPPORT. Per instruction: the encoded word carries the opcode in its low byte, the opcode map knows that opcode, and the
reserved bits of its format are 0 (30_encoding.md R48, R58).
-/

namespace Sys2Proof
namespace Laws
namespace EncodedShape

/-- The shape of an encoded command (30_encoding.md R48, R56, R58). -/
def Statement (i : Instr) : Prop :=
  opcodeField (encode i) = i.opcode ∧
    ∃ form, opcodeMap.lookup i.opcode = some form ∧ encode i &&& form.format.reservedMask = 0#32

/-- The shape follows from where the fields stand and from the fields alone being clear of the reserved bits. -/
theorem of_fields (i : Instr) (form : Form) (x : Word) (hfields : i.fields = x <<< 8)
    (hmap : opcodeMap.lookup i.opcode = some form) (hclear : i.fields &&& form.format.reservedMask = 0#32) :
    Statement i := by
  have henc : encode i = i.opcode.setWidth 32 ||| x <<< 8 := by rw [encode, hfields]
  refine ⟨by rw [henc, opcodeField_or_shift], form, hmap, ?_⟩
  rw [henc, or_shift_and_mask _ _ _ (reservedMask_spares_opcode _), ← hfields, hclear]

theorem nop : Statement .nop := of_fields _ (.n .nop) 0#32 rfl rfl rfl
theorem mul16 : Statement .mul16 := of_fields _ (.n .mul16) 0#32 rfl rfl rfl
theorem mul24 : Statement .mul24 := of_fields _ (.n .mul24) 0#32 rfl rfl rfl
theorem mul15 : Statement .mul15 := of_fields _ (.n .mul15) 0#32 rfl rfl rfl
theorem satu (n : BitVec 5) : Statement (.satu n) := of_fields _ (.s .satu) _ rfl rfl (width_reserved n)
theorem sats (n : BitVec 5) : Statement (.sats n) := of_fields _ (.s .sats) _ rfl rfl (width_reserved n)
theorem abs : Statement .abs := of_fields _ (.n .abs) 0#32 rfl rfl rfl
theorem bwr8 (id : BitVec 8) : Statement (.bwr8 id) := of_fields _ (.i .bwr8) _ rfl rfl (id_reserved id)
theorem brd8 (id : BitVec 8) : Statement (.brd8 id) := of_fields _ (.i .brd8) _ rfl rfl (id_reserved id)
theorem bwr32 (id : BitVec 8) : Statement (.bwr32 id) := of_fields _ (.i .bwr32) _ rfl rfl (id_reserved id)
theorem brd32 (id : BitVec 8) : Statement (.brd32 id) := of_fields _ (.i .brd32) _ rfl rfl (id_reserved id)
theorem bwr256 (id : BitVec 8) : Statement (.bwr256 id) := of_fields _ (.i .bwr256) _ rfl rfl (id_reserved id)
theorem brd256 (id : BitVec 8) : Statement (.brd256 id) := of_fields _ (.i .brd256) _ rfl rfl (id_reserved id)
theorem lerp16 : Statement .lerp16 := of_fields _ (.n .lerp16) 0#32 rfl rfl rfl
theorem lerp15 : Statement .lerp15 := of_fields _ (.n .lerp15) 0#32 rfl rfl rfl
theorem bilerp16 : Statement .bilerp16 := of_fields _ (.n .bilerp16) 0#32 rfl rfl rfl
theorem bilerp15 : Statement .bilerp15 := of_fields _ (.n .bilerp15) 0#32 rfl rfl rfl
theorem pdlerpRaw : Statement .pdlerpRaw := of_fields _ (.n .pdlerpRaw) 0#32 rfl rfl rfl
theorem pdlerpSgn : Statement .pdlerpSgn := of_fields _ (.n .pdlerpSgn) 0#32 rfl rfl rfl
theorem pdbilerpRaw : Statement .pdbilerpRaw := of_fields _ (.n .pdbilerpRaw) 0#32 rfl rfl rfl
theorem pdbilerpSgn : Statement .pdbilerpSgn := of_fields _ (.n .pdbilerpSgn) 0#32 rfl rfl rfl
theorem qevalRaw (fam : BitVec 4) : Statement (.qevalRaw fam) := of_fields _ (.f .qevalRaw) _ rfl rfl (family_reserved fam)
theorem qevalSgn (fam : BitVec 4) : Statement (.qevalSgn fam) := of_fields _ (.f .qevalSgn) _ rfl rfl (family_reserved fam)
theorem qevaliRaw (fam : BitVec 4) : Statement (.qevaliRaw fam) := of_fields _ (.f .qevaliRaw) _ rfl rfl (family_reserved fam)
theorem qevaliSgn (fam : BitVec 4) : Statement (.qevaliSgn fam) := of_fields _ (.f .qevaliSgn) _ rfl rfl (family_reserved fam)
theorem osetf (id : BitVec 8) : Statement (.osetf id) := of_fields _ (.i .osetf) _ rfl rfl (id_reserved id)
theorem osetm (id : BitVec 8) : Statement (.osetm id) := of_fields _ (.i .osetm) _ rfl rfl (id_reserved id)
theorem opm (id : BitVec 8) : Statement (.opm id) := of_fields _ (.i .opm) _ rfl rfl (id_reserved id)
theorem ostep (id : BitVec 8) (src : Source) (fam : BitVec 4) : Statement (.ostep id src fam) := of_fields _ (.o .ostep) _ (stepFields_eq_byte id src fam) rfl (step_reserved id src fam)
theorem ostepfm (id : BitVec 8) (src : Source) (fam : BitVec 4) : Statement (.ostepfm id src fam) := of_fields _ (.o .ostepfm) _ (stepFields_eq_byte id src fam) rfl (step_reserved id src fam)
theorem obeat (id : BitVec 8) (src : Source) (fam : BitVec 4) : Statement (.obeat id src fam) := of_fields _ (.o .obeat) _ (stepFields_eq_byte id src fam) rfl (step_reserved id src fam)
theorem orst (id : BitVec 8) : Statement (.orst id) := of_fields _ (.i .orst) _ rfl rfl (id_reserved id)
theorem ord (id : BitVec 8) (sel : OscField) : Statement (.ord id sel) := of_fields _ (.r .ord) _ (readFields_eq_byte id sel) rfl (read_reserved id sel)
theorem fold16 : Statement .fold16 := of_fields _ (.n .fold16) 0#32 rfl rfl rfl
theorem fold25 : Statement .fold25 := of_fields _ (.n .fold25) 0#32 rfl rfl rfl
theorem wrap16 : Statement .wrap16 := of_fields _ (.n .wrap16) 0#32 rfl rfl rfl

end EncodedShape
end Laws
end Sys2Proof
end

