-- ==== Sys2Proof/Tests/Slice0.lean ====
section
/-!
SUPPORT. Tests on fixed values. Expected results are the spec's: words from 30_encoding.md R49 to R61, results from the
vectors V1 to V7 of 95_test_vectors.md. The witnesses at the end show, for each statement with hypotheses, a state and
operands that meet them.
-/

namespace Sys2Proof
namespace Tests

open Machine Safety

/-! ### Well-formedness -/

theorem test_wf_refuses_sine_with_family :
    ¬ (Instr.ostep 0#8 .sine 3#4).WellFormed ∧ ¬ (Instr.ostepfm 0#8 .sine 1#4).WellFormed ∧
      ¬ (Instr.obeat 0#8 .sine 15#4).WellFormed := by decide

theorem test_wf_accepts :
    (Instr.ostep 255#8 .sine 0#4).WellFormed ∧ (Instr.obeat 0#8 .spline 15#4).WellFormed ∧
      (Instr.satu 31#5).WellFormed := by decide

/-! ### Decoding: one word per constructor, written out from 30_encoding.md R49 to R56 -/

/-- The word decodes to the command, and is the command's encoding. -/
def isWordOf (c : Word) (i : Instr) : Prop := decode c = .ok i ∧ encode i = c

theorem test_decode_arith :
    isWordOf 0x00000000#32 .nop ∧ isWordOf 0x00000010#32 .mul16 ∧ isWordOf 0x00000011#32 .mul24 ∧
    isWordOf 0x00000012#32 .mul15 ∧ isWordOf 0x00000B13#32 (.satu 11#5) ∧ isWordOf 0x00000E14#32 (.sats 14#5) ∧
    isWordOf 0x00000015#32 .abs := by unfold isWordOf; decide

theorem test_decode_buffer :
    isWordOf 0x0000FF20#32 (.bwr8 255#8) ∧ isWordOf 0x00000121#32 (.brd8 1#8) ∧ isWordOf 0x00000122#32 (.bwr32 1#8) ∧
    isWordOf 0x00000123#32 (.brd32 1#8) ∧ isWordOf 0x00008024#32 (.bwr256 128#8) ∧ isWordOf 0x00000025#32 (.brd256 0#8) := by
  unfold isWordOf; decide

theorem test_decode_interp :
    isWordOf 0x00000030#32 .lerp16 ∧ isWordOf 0x00000031#32 .lerp15 ∧ isWordOf 0x00000032#32 .bilerp16 ∧
    isWordOf 0x00000033#32 .bilerp15 ∧ isWordOf 0x00000034#32 .pdlerpRaw ∧ isWordOf 0x00000035#32 .pdlerpSgn ∧
    isWordOf 0x00000036#32 .pdbilerpRaw ∧ isWordOf 0x00000037#32 .pdbilerpSgn := by unfold isWordOf; decide

theorem test_decode_spline :
    isWordOf 0x00000140#32 (.qevalRaw 1#4) ∧ isWordOf 0x00000241#32 (.qevalSgn 2#4) ∧
    isWordOf 0x00000442#32 (.qevaliRaw 4#4) ∧ isWordOf 0x00000F43#32 (.qevaliSgn 15#4) := by unfold isWordOf; decide

theorem test_decode_oscillator :
    isWordOf 0x00000150#32 (.osetf 1#8) ∧ isWordOf 0x00000151#32 (.osetm 1#8) ∧ isWordOf 0x00000052#32 (.opm 0#8) ∧
    isWordOf 0x00A10053#32 (.ostep 0#8 .spline 10#4) ∧ isWordOf 0x00000254#32 (.ostepfm 2#8 .sine 0#4) ∧
    isWordOf 0x00010155#32 (.obeat 1#8 .spline 0#4) ∧ isWordOf 0x00000056#32 (.orst 0#8) ∧
    isWordOf 0x00030057#32 (.ord 0#8 .lastPhaseModulation) := by unfold isWordOf; decide

theorem test_decode_fold :
    isWordOf 0x00000060#32 .fold16 ∧ isWordOf 0x00000061#32 .fold25 ∧ isWordOf 0x00000062#32 .wrap16 := by
  unfold isWordOf; decide

/-- The illegal words of V7. -/
theorem test_decode_refuses :
    decode 0x00000001#32 = .error .unknownOpcode ∧ decode 0xFFFFFFFF#32 = .error .unknownOpcode ∧
    decode 0x01000010#32 = .error .reservedBit ∧ decode 0x00000100#32 = .error .reservedBit ∧
    decode 0x00020053#32 = .error .reservedBit ∧ decode 0x00002013#32 = .error .reservedBit ∧
    decode 0x00001040#32 = .error .reservedBit ∧ decode 0x00100253#32 = .error .familyWithoutSpline ∧
    decode 0x00050057#32 = .error .badSelector ∧ decode 0x00070057#32 = .error .badSelector := by decide

theorem test_table_word :
    decodeTableWord 32 0x00001F14 = some (.sats 31#5) ∧ decodeTableWord 32 0x00000001 = none := by decide

/-- 30_encoding.md R60, R61. -/
theorem test_assembler :
    (asmSat15.map encode = some 0x00000E14#32) ∧ (asmDac12.map encode = some 0x00000B13#32) ∧
    (asmOstep 0).map encode = some 0x00000053#32 ∧ (asmWidth .satu 33).isNone ∧ (asmWidth .satu 0).isNone ∧
    (asmRead 0 "lastpm").map encode = some 0x00030057#32 ∧ (asmRead 0 "gain").isNone := by decide

/-! ### A small state: the test configuration of 95_test_vectors.md, two instances of each kind -/

/-- Two instances of each kind after reset, every register 0. -/
def base : State :=
  { opa := 0#32, opb := 0#32, opc := 0#32, opd := 0#32, ope := 0#32, opf := 0#32, res0 := 0#32, res1 := 0#32
    status := 0#32, fcmd := 0#32, buf8 := [Buf.reset 8, Buf.reset 8], buf32 := [Buf.reset 32, Buf.reset 32]
    buf256 := [Buf.reset 256, Buf.reset 256], osc := [Osc.reset, Osc.reset], pending := [], reply := none }

/-- `base` with the first three operands. -/
def ops (a b c : Word) : State := { base with opa := a, opb := b, opc := c }

/-- `base` with all six operands. -/
def ops6 (a b c d e f : Word) : State := { base with opa := a, opb := b, opc := c, opd := d, ope := e, opf := f }

/-- The results of an outcome. -/
def results (o : Outcome) : Option (Word × Word) :=
  match o with
  | .next t => some (t.res0, t.res1)
  | _ => none

/-- The fault record of an outcome. -/
def record (o : Outcome) : Option (Word × Word) :=
  match o with
  | .next t => some (t.status, t.fcmd)
  | _ => none

/-- The oscillators of an outcome. -/
def oscillators (o : Outcome) : Option (List Osc) :=
  match o with
  | .next t => some t.osc
  | _ => none

/-- The ramp family: `T_0[i] = 1000·(i − 2)`, `T_1 = 2·T_0`; the last table's delta is 0. -/
def rampWord (j i : Nat) : Word :=
  if j = 0 then BitVec.ofInt 16 (1000 * ((i : Int) - 2)) ++ BitVec.ofInt 16 (1000 * ((i : Int) - 2))
  else 0#16 ++ BitVec.ofInt 16 (2000 * ((i : Int) - 2))

/-- The parameters of the test configuration, with the kernel that always gives m_2. -/
def rampParams : Config.Params :=
  { lastBuf8 := 1, lastBuf32 := 1, lastBuf256 := 1, lastOsc := 1, lastFam := 0
    lastTable := fun _ => 1, lastLeft := fun _ => 2, wt := fun _ j i => rampWord j i
    sine := fun i => BitVec.ofNat 32 (16 * i.toNat), sineFracLsb := 4, phaseShift := fun _ => 14
    kernel := fun m _ => m.m2, smooth := fun _ => false, contTol := 0, midTol := 0, pBase := 0x40000000
    latency := fun _ => 1 }

/-! ### V1 -/

theorem test_mul16 :
    results (exec .mul16 (ops 0x00018000#32 0x00020000#32 0#32)) = some (0x00030000#32, 0#32) ∧
    results (exec .mul16 (ops 0xFFFFFFFF#32 0x00000001#32 0#32)) = some (0xFFFFFFFF#32, 0#32) := by decide

theorem test_mul24 :
    results (exec .mul24 (ops 0xFF000000#32 0x00800000#32 0#32)) = some (0xFF800000#32, 0#32) ∧
    results (exec .mul24 (ops 0x7FFFFFFF#32 0x7FFFFFFF#32 0#32)) = some (0xFFFFFF00#32, 0#32) := by decide

theorem test_mul15 :
    results (exec .mul15 (ops 0x00010000#32 0x00010000#32 0#32)) = some (0x00020000#32, 0#32) ∧
    results (exec .mul15 (ops 0x7FFFFFFF#32 0x7FFFFFFF#32 0#32)) = some (0xFFFE0000#32, 0#32) := by decide

theorem test_satu :
    results (exec (.satu 11#5) (ops 0x00001388#32 0#32 0#32)) = some (0x00000FFF#32, 0#32) ∧
    results (exec (.satu 31#5) (ops 0x80000000#32 0#32 0#32)) = some (0#32, 0#32) ∧
    results (exec (.satu 0#5) (ops 0x00000007#32 0#32 0#32)) = some (1#32, 0#32) := by decide

theorem test_sats :
    results (exec (.sats 14#5) (ops 0xFFFFC000#32 0#32 0#32)) = some (0xFFFFC001#32, 0#32) ∧
    results (exec (.sats 31#5) (ops 0x80000000#32 0#32 0#32)) = some (0x80000001#32, 0#32) ∧
    results (exec (.sats 0#5) (ops 0x00000005#32 0#32 0#32)) = some (0#32, 0#32) := by decide

theorem test_abs :
    results (exec .abs (ops 0xFFFFFFFB#32 0#32 0#32)) = some (5#32, 0#32) ∧
    results (exec .abs (ops 0x80000000#32 0#32 0#32)) = some (0x80000000#32, 0#32) := by decide

/-! ### V2 -/

/-- A depth-8 buffer after the writes 10, 20, 30. -/
def dithered : Buf 8 := (((Buf.reset 8).write 10#32).write 20#32).write 30#32

theorem test_bwr8 :
    exec (.bwr8 1#8) (ops 5#32 0#32 0#32) =
      .next { ops 5#32 0#32 0#32 with
        buf8 := [Buf.reset 8, { data := #v[5#32, 0#32, 0#32, 0#32, 0#32, 0#32, 0#32, 0#32], cursor := 1#32 }] } := by
  rfl

theorem test_brd8 :
    results (exec (.brd8 0#8) { ops 0#32 0#32 0#32 with buf8 := [dithered] }) = some (30#32, 0#32) ∧
    results (exec (.brd8 0#8) { ops 2#32 0#32 0#32 with buf8 := [dithered] }) = some (10#32, 0#32) ∧
    results (exec (.brd8 0#8) { ops 8#32 0#32 0#32 with buf8 := [dithered] }) = some (30#32, 0#32) ∧
    results (exec (.brd8 0#8) { ops 0xFFFFFFFF#32 0#32 0#32 with buf8 := [dithered] }) = some (0#32, 0#32) := by decide

theorem test_bwr8_bad_instance :
    record (exec (.bwr8 2#8) base) = some (5#32, 0x00000220#32) := by decide

theorem test_bwr32 :
    exec (.bwr32 1#8) (ops 0xFFFFFFFF#32 0#32 0#32) =
      .next { ops 0xFFFFFFFF#32 0#32 0#32 with buf32 := [Buf.reset 32, (Buf.reset 32).write 0xFFFFFFFF#32] } := rfl

theorem test_brd32 :
    results (exec (.brd32 1#8) { ops 32#32 0#32 0#32 with buf32 := [Buf.reset 32, (Buf.reset 32).write 0xFFFFFFFF#32] }) =
      some (0xFFFFFFFF#32, 0#32) ∧
    results (exec (.brd32 1#8) { ops 1#32 0#32 0#32 with buf32 := [Buf.reset 32, (Buf.reset 32).write 0xFFFFFFFF#32] }) =
      some (0#32, 0#32) := by decide

theorem test_bwr256 :
    exec (.bwr256 0#8) (ops 7#32 0#32 0#32) =
      .next { ops 7#32 0#32 0#32 with buf256 := [(Buf.reset 256).write 7#32, Buf.reset 256] } := rfl

/-- A read of a fresh instance, and k mod 256. -/
theorem test_brd256 :
    results (exec (.brd256 0#8) base) = some (0#32, 0#32) ∧
    results (exec (.brd256 0#8) { ops 256#32 0#32 0#32 with buf256 := [(Buf.reset 256).write 7#32] }) =
      some (7#32, 0#32) := by decide

/-! ### V3 -/

theorem test_lerp16 :
    results (exec .lerp16 (ops 0#32 0x00030000#32 0xFFFF#32)) = some (0x0002FFFD#32, 0#32) ∧
    results (exec .lerp16 (ops 0x7FFFFFFF#32 0x80000000#32 0x8000#32)) = some (0x7FFFFFFF#32, 0#32) := by decide

theorem test_lerp15 :
    results (exec .lerp15 (ops 0#32 0x7FFF#32 0x7FFF#32)) = some (0x00007FFE#32, 0#32) ∧
    results (exec .lerp15 (ops 0#32 0xFFFFFFFD#32 0x2AAA#32)) = some (0xFFFFFFFF#32, 0#32) := by decide

theorem test_bilerp16 :
    results (exec .bilerp16 (ops6 0#32 100#32 200#32 300#32 0x8000#32 0x8000#32)) = some (0x96#32, 0#32) ∧
    results (exec .bilerp16 (ops6 1#32 2#32 3#32 4#32 0x8000#32 0x8000#32)) = some (2#32, 0#32) := by decide

theorem test_bilerp15 :
    results (exec .bilerp15 (ops6 0#32 100#32 200#32 300#32 0x8000#32 0#32)) = some (0x64#32, 0#32) := by decide

theorem test_pdlerp_raw :
    results (exec .pdlerpRaw (ops 0xFF000100#32 0xFFFF#32 0#32)) = some (0#32, 0xFFFFFF00#32) ∧
    results (exec .pdlerpRaw (ops 0x7FFF8000#32 0xFFFF#32 0#32)) = some (0xFFFFFFFE#32, 0x7FFF#32) := by decide

theorem test_pdlerp_sgn :
    results (exec .pdlerpSgn (ops 0xFF000100#32 0x8000#32 0#32)) = some (0x80#32, 1#32) ∧
    results (exec .pdlerpSgn (ops 0x00010000#32 0x8000#32 0#32)) = some (0#32, 0#32) := by decide

theorem test_pdbilerp_raw :
    results (exec .pdbilerpRaw (ops6 0x00100000#32 0x00100100#32 0x8000#32 0x4000#32 0#32 0#32)) =
      some (0x48#32, 0x100#32) ∧
    results (exec .pdbilerpRaw (ops6 0x00000100#32 0x00000080#32 0x8000#32 0x8000#32 0#32 0#32)) =
      some (0xC0#32, 0xFFFFFF80#32) := by decide

theorem test_pdbilerp_sgn :
    results (exec .pdbilerpSgn (ops6 0x00000100#32 0x00000080#32 0x8000#32 0x8000#32 0#32 0#32)) =
      some (0xC0#32, 1#32) ∧
    results (exec .pdbilerpSgn (ops6 0x00000005#32 0x00000005#32 0x1234#32 0x5678#32 0#32 0#32)) =
      some (5#32, 0#32) := by decide

/-! ### V4, on the one operation behind the four spline commands, under the test configuration -/

theorem test_qeval_raw :
    results (splineCommand rampParams 0x00000040#32 0#4 none .raw (ops 0x00010000#32 0x00004000#32 0#32)) =
      some (0x4E2#32, 0x4E2#32) ∧
    results (splineCommand rampParams 0x00000040#32 0#4 none .raw (ops 0x00020000#32 0#32 0#32)) =
      some (0x7D0#32, 0x3E8#32) := by decide

theorem test_qeval_sgn :
    results (splineCommand rampParams 0x00000041#32 0#4 none .sgn (ops 0x00020000#32 0x00018000#32 0#32)) =
      some (0xFA0#32, 0#32) := by decide

theorem test_qevali_raw :
    results (splineCommand rampParams 0x00000042#32 0#4 (some 0x8000#32) .raw (ops 0#32 0x00010000#32 0x8000#32)) =
      some (0#32, 0x7D0#32) := by decide

/-- 44_spline.md R110's blend of a kernel value 0x3000 halfway to m_2 = 0x1000 gives 0x2000; io = 1.0 gives m_2. -/
theorem test_qevali_sgn :
    splineSample { rampParams with kernel := fun _ _ => 0x3000#32 }
      { m0 := 0#32, m1 := 0#32, m2 := 0x1000#32, m3 := 0#32, m4 := 0#32, m5 := 0#32 } 1#16 (some 0x8000#32) = 0x2000#32 ∧
    results (splineCommand rampParams 0x00000043#32 0#4 (some 0x10000#32) .sgn (ops 0x00018000#32 0#32 0x10000#32)) =
      some (0x3E8#32, 0#32) := by decide

theorem test_spline_faults :
    record (splineCommand rampParams 0x00000040#32 0#4 none .raw (ops 0x00030000#32 0#32 0#32)) =
      some (7#32, 0x00000040#32) ∧
    record (splineCommand rampParams 0x00000040#32 0#4 none .raw (ops 0#32 0x00020000#32 0#32)) =
      some (7#32, 0x00000040#32) ∧
    record (splineCommand rampParams 0x00000140#32 1#4 none .raw base) = some (5#32, 0x00000140#32) := by decide

/-! ### V5, the steps on the one operation behind them, under the test configuration -/

theorem test_osetf_osetm :
    oscillators (exec (.osetf 0#8) (ops 0x40000000#32 0#32 0#32)) =
      some [{ Osc.reset with frequency := 0x40000000#32 }, Osc.reset] ∧
    oscillators (exec (.osetm 1#8) (ops 0x00004000#32 0#32 0#32)) =
      some [Osc.reset, { Osc.reset with morph := 0x00004000#32 }] := by decide

/-- E10: OPM with 40 after 100. -/
theorem test_opm :
    oscillators (exec (.opm 0#8) { ops 40#32 0#32 0#32 with
      osc := [{ Osc.reset with phaseModulation := 100#32, lastPhaseModulation := 100#32 }] }) =
      some [{ Osc.reset with phaseModulation := 0xFFFFFFC4#32, lastPhaseModulation := 40#32 }] := by decide

theorem test_orst :
    oscillators (exec (.orst 0#8) { base with osc := [{ Osc.reset with frequency := 1#32, phase := 5#32, morph := 9#32 }] }) =
      some [{ Osc.reset with frequency := 1#32, morph := 9#32 }] := by decide

theorem test_ord :
    results (exec (.ord 0#8 .lastPhaseModulation) { base with
      osc := [{ frequency := 1#32, phase := 2#32, phaseModulation := 3#32, lastPhaseModulation := 4#32, morph := 5#32 }] }) =
      some (4#32, 0#32) ∧
    record (exec (.ord 2#8 .frequency) base) = some (5#32, 0x00000257#32) := by decide

/-- OSTEP on the sine path: the fraction of 0x0012_3456, and the index that wraps to 0. -/
theorem test_ostep_sine :
    results (oscStep rampParams 0x53#32 0#8 .sine 0#4 (fun o => o.advance)
      { base with osc := [{ Osc.reset with frequency := 0x00123456#32 }] }) = some (0x12#32, 0x00123456#32) ∧
    results (oscStep rampParams 0x53#32 0#8 .sine 0#4 (fun o => o.advance)
      { base with osc := [{ Osc.reset with frequency := 0xFFF08000#32 }] }) = some (0xF7F0#32, 0xFFF08000#32) := by
  decide

/-- OSTEP on the spline path: 0x8000_0000 is cell 2, and 0xC000_0000 is TABLE_RANGE and leaves the phase. -/
theorem test_ostep_spline :
    results (oscStep rampParams 0x00010053#32 0#8 .spline 0#4 (fun o => o.advance)
      { base with osc := [{ Osc.reset with frequency := 0x40000000#32, phase := 0x40000000#32 }] }) =
      some (0x7D0#32, 0x80000000#32) ∧
    oscStep rampParams 0x00010053#32 0#8 .spline 0#4 (fun o => o.advance)
      { base with osc := [{ Osc.reset with frequency := 0x40000000#32, phase := 0x80000000#32 }] } =
      .next { base with osc := [{ Osc.reset with frequency := 0x40000000#32, phase := 0x80000000#32 }],
                        status := 7#32, fcmd := 0x00010053#32 } := by
  exact ⟨by decide, rfl⟩

theorem test_ostepfm :
    results (oscStep rampParams 0x54#32 0#8 .sine 0#4 (fun o => o.advanceFM 0x00020000#32)
      { base with osc := [{ Osc.reset with frequency := 0x01000000#32 }] }) = some (0x200#32, 0x02000000#32) ∧
    results (oscStep rampParams 0x54#32 0#8 .sine 0#4 (fun o => o.advanceFM 0xFFFF0000#32)
      { base with osc := [{ Osc.reset with frequency := 0x01000000#32 }] }) = some (0xFF00#32, 0xFF000000#32) := by
  decide

theorem test_obeat :
    results (oscStep rampParams 0x55#32 0#8 .sine 0#4 (fun o => o.beat 3#32)
      { base with osc := [{ Osc.reset with frequency := 0x55555556#32 }] }) = some (0#32, 2#32) ∧
    results (oscStep rampParams 0x00010055#32 0#8 .spline 0#4 (fun o => o.beat 5#32)
      { base with osc := [{ Osc.reset with frequency := 0x40000000#32, morph := 0x4000#32 }] }) =
      some (0x4E2#32, 0x40000000#32) := by decide

theorem test_step_bad_instance :
    record (exec (.ostep 2#8 .sine 0#4) base) = some (5#32, 0x00000253#32) ∧
    record (oscStep rampParams 0x00110053#32 0#8 .spline 1#4 (fun o => o.advance) base) =
      some (5#32, 0x00110053#32) := by decide

/-- 45_osc.md R120: the default shift of the observed 517-sample family is 7. -/
theorem test_default_phase_shift :
    defaultPhaseShift 517 = some 7 ∧ defaultPhaseShift 8 = none ∧ defaultPhaseShift 6 = some 16 ∧
    defaultPhaseShift 65541 = some 0 := by decide

/-! ### V6 -/

theorem test_fold16 :
    results (exec .fold16 (ops 0x00031234#32 0#32 0#32)) = some (0xEDCB#32, 0#32) ∧
    results (exec .fold16 (ops 0x0001FFFF#32 0#32 0#32)) = some (0#32, 0#32) := by decide

theorem test_fold25 :
    results (exec .fold25 (ops 0x02000001#32 0#32 0#32)) = some (0x01FFFFFE#32, 0#32) ∧
    results (exec .fold25 (ops 0x04000005#32 0#32 0#32)) = some (5#32, 0#32) := by decide

theorem test_wrap16 :
    results (exec .wrap16 (ops 0xFFFFFFFF#32 0#32 0#32)) = some (0xFFFF#32, 0#32) ∧
    results (exec .wrap16 (ops 0x00010000#32 0#32 0#32)) = some (0#32, 0#32) := by decide

/-! ### V7: faults, and the step -/

theorem test_illegal_wins :
    record (issue 0x00100253#32 base) = some (3#32, 0x00100253#32) ∧
    record (issue 0x00000001#32 base) = some (3#32, 0x00000001#32) ∧
    record (issue 0x00000000#32 base) = some (0#32, 0#32) := by decide

theorem test_halted_ignores :
    issue 0x00000010#32 { ops 0x10000#32 0x10000#32 0#32 with status := 3#32, fcmd := 1#32 } =
      .next { ops 0x10000#32 0x10000#32 0#32 with status := 3#32, fcmd := 1#32 } := rfl

/-- A NOP placed by the host is the first instruction after reset. -/
theorem test_step_after_reset : step (State.reset.withFetchWord 32 0x00000000) = .next State.reset := rfl

/-- A 16-bit access is refused, and so is an offset past the map (20_memory.md R42). -/
theorem test_refusals :
    hostAccess (.read 0x04 2) base = .refused (.accessWidth 2) ∧
    hostAccess (.write 0x30 4 1#32) base = .refused (.accessOffset 0x30) ∧
    hostAccess (.read 0x05 4) base = .refused (.accessOffset 0x05) := ⟨rfl, rfl, rfl⟩

theorem test_host_read_status :
    hostAccess (.read 0x24 4) { base with status := 7#32 } = .next { base with status := 7#32, reply := some 7#32 } := rfl

/-- Every row of the opcode map, its field bits 0, runs as the first instruction after reset. -/
theorem test_every_row_runs :
    (opcodeMap.all fun e => match step (State.reset.withFetchWord 32 e.1.toNat) with
      | .next _ => true
      | _ => false) = true := by decide

/-! ### Witnesses: states and operands that meet the hypotheses of the statements -/

/-- A statement's hypotheses on a command word: legal words of formats O and S, and an illegal one. -/
theorem witness_words :
    (Instr.ostep 255#8 .spline 15#4).WellFormed ∧ decode 0x00F1FF53#32 = .ok (.ostep 255#8 .spline 15#4) ∧
    decode 0x00001F13#32 = .ok (.satu 31#5) ∧ decode 0x00000063#32 = .error .unknownOpcode := by decide

/-- MatchAndMaskDecideTheCommand: a row of format O and a row of format R. -/
theorem witness_MatchAndMask :
    (opcodeMap[28]?.map fun e => (e.1, e.2.format)) = some (0x53#8, .o) ∧
    (opcodeMap[32]?.map fun e => (e.1, e.2.format)) = some (0x57#8, .r) := by decide

/-- IllegalWordsAndTheirFault, FirstFailingCheckDecidesTheFault: a block with no fault, an illegal word, a missing
instance, and a command that fails no check. -/
theorem witness_IllegalWordsAndTheirFault :
    base.faulted = false ∧ (∃ e, decode 0x0000000F#32 = .error e) ∧ firstFailure 0x0000000F#32 base = some 1 ∧
    firstFailure 0x00000220#32 base = some 2 ∧ firstFailure 0x00000120#32 base = none :=
  ⟨rfl, ⟨_, rfl⟩, by decide, by decide, by decide⟩

/-- FirstFailingCheckDecidesTheFault, TABLE_RANGE: QEVAL_RAW at the last phase, wherever the block's family 0 is shorter
than the longest family 00_scope.md R6 allows. -/
theorem witness_FirstFailingCheck_tableRange (h : Config.params.tableLength 0#4 < 65541) :
    firstFailure 0x00000040#32 (ops 0xFFFF0000#32 0#32 0#32) = some 3 := by
  have hw : windowInTables Config.params 0#4 0xFFFF0000#32 0#32 = false := by
    simp only [windowInTables, Bool.and_eq_false_iff, decide_eq_false_iff_not]
    left
    simp only [BitVec.toNat_ofNat]
    omega
  have hd : decode 0x00000040#32 = .ok (.qevalRaw 0#4) := by decide
  simp [firstFailure, hd, instancesExist, familyExists, Config.Params.numFam, tablesInRange, ops, hw]

/-- ByteImageDecodesAsOneWord: a legal and an illegal word, images of 0 and of 3 bytes, and the last byte of a word. -/
theorem witness_ByteImageDecodesAsOneWord :
    decode 0x00000B13#32 = .ok (.satu 11#5) ∧ decode 0xFFFFFFFF#32 = .error .unknownOpcode ∧
    ([] : List Byte).length < 4 ∧ [0x13#8, 0x0B#8, 0#8].length < 4 ∧ (wordBytes 0xA1000000#32)[3]? = some 0xA1#8 := by
  decide

/-- AssemblerEncodesOrRefuses: the widths and numbers at both ends of each range, and a row of each format. -/
theorem witness_AssemblerEncodesOrRefuses :
    (asmWidth .satu 1).isSome ∧ (asmWidth .satu 32).isSome ∧ (asmWidth .satu 33).isNone ∧
    (asmInstance .bwr8 255).isSome ∧ (asmInstance .bwr8 256).isNone ∧ (asmFamily .qevalRaw 15).isSome ∧
    (asmFamily .qevalRaw 16).isNone ∧ (asmStepSpline .ostep 255 15).isSome ∧ (asmStepSpline .ostep 255 16).isNone ∧
    (opcodeMap[7]?.map fun e => e.2.format) = some .i ∧ (opcodeMap[21]?.map fun e => e.2.format) = some .f ∧
    (opcodeMap[28]?.map fun e => e.2.format) = some .o := by decide

/-- MultiplyIsTheShiftedProduct, MultiplyLaws, LerpIsTheWrappedFormula, LerpLaws: the formats. -/
theorem witness_formats : (15 : Nat) ∈ [16, 24, 15] ∧ (24 : Nat) ∈ [16, 24, 15] ∧ (15 : Nat) ∈ [16, 15] := by decide

/-- UnsignedClampStaysInRange, SignedClampIsSymmetric: widths 1 and 32, and the last clause from 31. -/
theorem witness_clampWidths : (1 ≤ 1 ∧ 1 ≤ 32) ∧ (1 ≤ 32 ∧ 32 ≤ 32) ∧ 31 ≤ 31 := by decide

/-- LerpLaws (c), (d), (e): a difference at either end that does not wrap, a fraction at the end of its range, a sum at
the top of the signed range. -/
theorem witness_LerpLaws :
    (-2 ^ 31 ≤ (0x7FFFFFFF#32).toInt - (0#32).toInt ∧ (0x7FFFFFFF#32).toInt - (0#32).toInt < 2 ^ 31) ∧
    (-2 ^ 31 ≤ (0x80000000#32).toInt - (0#32).toInt ∧ (0x80000000#32).toInt - (0#32).toInt < 2 ^ 31) ∧
    (-2 ^ 30 ≤ (0xC0000000#32).toInt ∧ (0xC0000000#32).toInt < 2 ^ 30) ∧
    (-2 ^ 31 ≤ (0#32).toInt + ((0x7FFFFFFF#32).toInt - (0#32).toInt) * (0x10000#32).toInt / 2 ^ 16 ∧
      (0#32).toInt + ((0x7FFFFFFF#32).toInt - (0#32).toInt) * (0x10000#32).toInt / 2 ^ 16 < 2 ^ 31) := by decide

/-- BufferWriteCommands, BufferReadCommands and the oscillator statements: the last
instance that exists and the first that does not, in a block with no fault. -/
theorem witness_instances :
    base.buf8[(1#8).toNat]? = some (Buf.reset 8) ∧ base.buf32[(1#8).toNat]? = some (Buf.reset 32) ∧
    base.buf256[(1#8).toNat]? = some (Buf.reset 256) ∧ base.osc[(1#8).toNat]? = some Osc.reset ∧
    base.buf8.length ≤ (2#8).toNat ∧ base.buf32.length ≤ (255#8).toNat ∧ base.buf256.length ≤ (2#8).toNat ∧
    base.osc.length ≤ (2#8).toNat ∧ base.faulted = false := ⟨rfl, rfl, rfl, rfl, by decide, by decide, by decide, by decide, rfl⟩

/-- BufferReadsBackItsWrites: the last offset of each depth; its first clause is met by `test_bwr8`'s step. -/
theorem witness_offsets : (7#32).toNat < 8 ∧ (31#32).toNat < 32 ∧ (255#32).toNat < 256 := by decide

/-- KernelHasItsNamedProperties: a window the parameter calls smooth, and a falling ramp. -/
theorem witness_KernelHasItsNamedProperties :
    (∃ (p : Config.Params) (m : Config.Samples), p.smooth m = true) ∧
    (5#32).toInt = 5 ∧ (4#32).toInt = 5 + -1 ∧ (3#32).toInt = 5 + 2 * -1 ∧ (2#32).toInt = 5 + 3 * -1 ∧
    (1#32).toInt = 5 + 4 * -1 ∧ (0#32).toInt = 5 + 5 * -1 :=
  ⟨⟨{ rampParams with smooth := fun _ => true }, default, rfl⟩, by decide⟩

/-- MorphedSampleBlendsTwoTables: the ramp ROM's deltas are the differences of its tables. -/
theorem witness_MorphedSampleBlendsTwoTables :
    deltaValue (rampParams.wt 0#4 0 7) = baseValue (rampParams.wt 0#4 1 7) - baseValue (rampParams.wt 0#4 0 7) := by decide

/-- SplineCommandsComplete, SplineStepsComplete: family 0 exists and phase 0, morph 0 lie in its tables, whatever the
parameters. -/
theorem witness_SplineCommandsComplete :
    (0#4).toNat < Config.params.numFam ∧ windowInTables Config.params 0#4 base.opa base.opb = true ∧
    base.osc[(0#8).toNat]? = some Osc.reset ∧ ∀ i ∈ [Instr.ostep 0#8 .spline 0#4, .ostepfm 0#8 .spline 0#4, .obeat 0#8 .spline 0#4],
      windowInTables Config.params 0#4 (splinePhase Config.params 0#4 (nextPhase i Osc.reset base)) Osc.reset.morph = true := by
  have hw : windowInTables Config.params 0#4 0#32 0#32 = true := by
    simp [windowInTables, Config.Params.tableLength, Config.Params.numTables]
  refine ⟨by simp [Config.Params.numFam], hw, rfl, fun i hi => ?_⟩
  have hn : nextPhase i Osc.reset base = 0#32 := by
    simp only [List.mem_cons, List.not_mem_nil, or_false] at hi
    rcases hi with rfl | rfl | rfl <;> decide
  rw [hn]
  simpa [splinePhase, Osc.reset] using hw

/-- SplineCommandsCheckTheirTables, FaultingStepLeavesTheOscillator: under the test configuration family 1 does not exist,
and the first cell past the last and the first table past the last leave the tables. -/
theorem witness_SplineCommandsCheckTheirTables :
    base.faulted = false ∧ rampParams.numFam ≤ (1#4).toNat ∧ (0#4).toNat < rampParams.numFam ∧
    windowInTables rampParams 0#4 0x0002FFFF#32 0x0001FFFF#32 = true ∧
    windowInTables rampParams 0#4 0x00030000#32 0#32 = false ∧ windowInTables rampParams 0#4 0#32 0x00020000#32 = false ∧
    windowInTables rampParams 0#4 (splinePhase rampParams 0#4 0xC0000000#32) 0#32 = false := by decide

/-- FaultingStepLeavesTheOscillator: an oscillator that exists in a block with no fault, a family that does not exist, and
a new phase whose window leaves the tables. -/
theorem witness_FaultingStepLeavesTheOscillator :
    base.faulted = false ∧ base.osc[(1#8).toNat]? = some Osc.reset ∧ rampParams.numFam ≤ (1#4).toNat ∧
    (0#4).toNat < rampParams.numFam ∧
    windowInTables rampParams 0#4 (splinePhase rampParams 0#4 ((fun _ => 0xC0000000#32) Osc.reset)) Osc.reset.morph = false := by
  decide

/-- SplineLaws: an evaluation that answers at phase fraction 0 and morph fraction 0, with a factor at either end, and the
centre sample of its last clause. -/
theorem witness_SplineLaws :
    splineEval rampParams 0#4 0x00020000#32 0#32 none .raw = .ok (0x7D0#32, 0x3E8#32) ∧
    splineEval rampParams 0#4 0x00020000#32 0#32 (some 0x7FFFFFFF#32) .raw = .ok (0x7D0#32, 0x3E8#32) ∧
    (0x00020000#32).toNat % 65536 = 0 ∧ 0 ≤ (0x7FFFFFFF#32).toInt ∧
    (windowSample rampParams 0#4 0x00020000#32 0#32 2).toInt.natAbs ≤ 16383 ∧
    (0x0002FFFF#32).toNat / 65536 = (0x00020000#32).toNat / 65536 :=
  ⟨rfl, rfl, by decide, by decide, by decide, by decide⟩

/-- A run of OSTEP 0, sine, on an oscillator with frequency 0x4000_0000. -/
def sineRun : Nat → State
  | 0 => { base with osc := [{ Osc.reset with frequency := 0x40000000#32 }] }
  | n + 1 =>
    match exec (.ostep 0#8 .sine 0#4) (sineRun n) with
    | .next t => t
    | _ => sineRun n

/-- PhaseReturnsToZeroExactly: `sineRun` meets its hypotheses. -/
theorem witness_PhaseReturnsToZeroExactly :
    (sineRun 0).osc[(0#8).toNat]? = some { Osc.reset with frequency := 0x40000000#32 } ∧
    Osc.reset.phase = 0#32 ∧ Osc.reset.phaseModulation = 0#32 ∧ 0x40000000#32 ≠ 0#32 ∧
    (0x40000000#32).toNat ∣ 2 ^ 32 ∧
    ∀ n, exec (.ostep 0#8 .sine 0#4) (sineRun n) = .next (sineRun (n + 1)) := by
  refine ⟨rfl, rfl, rfl, by decide, by decide, fun n => ?_⟩
  obtain ⟨effect, he, -⟩ := exec_complete (.ostep 0#8 .sine 0#4) (sineRun n)
  rw [sineRun, he]
  rfl

/-- NopChangesNothing: NOP words with the highest and the lowest reserved bit. -/
theorem witness_NopChangesNothing :
    (0x80000000#32).toNat % 256 = 0 ∧ 0x80000000#32 ≠ 0#32 ∧ (0x00000100#32).toNat % 256 = 0 ∧ 0x00000100#32 ≠ 0#32 := by
  decide

/-- FaultsArePrecise: a step that ends in a fault. -/
theorem witness_FaultsArePrecise :
    base.faulted = false ∧ issue 0x00000220#32 base = .next { base with status := 5#32, fcmd := 0x00000220#32 } ∧
    ({ base with status := 5#32, fcmd := 0x00000220#32 } : State).faulted = true := ⟨rfl, rfl, rfl⟩

/-- A halted block with the given next access. -/
def halted (a : Access) : State := { base with status := 5#32, fcmd := 0x00000220#32, pending := [a] }

/-- HaltedBlockIgnoresCommands, OnlyResetClearsAFault: halted blocks whose next access is each kind named. -/
theorem witness_HaltedBlockIgnoresCommands :
    (halted (.write 0x00 4 0x10#32)).faulted = true ∧ (halted (.read (HostReg.offset .fcmd) 4)).faulted = true ∧
    (halted (.write 0x18 4 1#32)).pending = .write 0x18 4 1#32 :: [] ∧
    (halted (.write 0x00 4 0x10#32)).pending.head? ≠ some .reset ∧
    step (halted (.write 0x00 4 0x10#32)) = .next { halted (.write 0x00 4 0x10#32) with pending := [] } ∧
    (halted .reset).pending.head? = some .reset ∧ step (halted .reset) = .next State.reset :=
  ⟨rfl, rfl, rfl, by decide, rfl, rfl, rfl⟩

/-- CommandsWriteOnlyTheirResults, CommandsReadOnlyTheirOperands, InstancesAreIndependent and the other statements over
`exec`: a next state, a register not read, a result not written, an instance that changes. -/
theorem witness_exec :
    exec (.bwr8 1#8) (ops 5#32 0#32 0#32) =
      .next { ops 5#32 0#32 0#32 with buf8 := [Buf.reset 8, (Buf.reset 8).write 5#32] } ∧
    .opb ∉ operandsRead (.bwr8 1#8) ∧ HostReg.opb ∈ [.opa, .opb, .opc, .opd, .ope, .opf] ∧
    .res0 ∉ resultsWritten (.bwr8 1#8) ∧ .res1 ∉ resultsWritten (.bwr8 1#8) ∧
    [Buf.reset 8, (Buf.reset 8).write 5#32][1]? ≠ (ops 5#32 0#32 0#32).buf8[1]? :=
  ⟨rfl, by decide, by decide, by decide, by decide, by decide⟩

/-- StepRunsTheDecodedCommand: a pending write of MUL16's word to a block with no fault. -/
theorem witness_StepRunsTheDecodedCommand :
    (base.withHost [.write 0x00 4 0x10#32]).pending = .write 0x00 4 0x10#32 :: [] ∧
    (base.withHost [.write 0x00 4 0x10#32]).faulted = false ∧ decode 0x10#32 = .ok .mul16 := ⟨rfl, rfl, rfl⟩

/-- HostRegisterMap, UnadmittedAccessesAreRefused, ResetAccessResetsTheBlock: pending accesses at the ends of the map, past
it, between words, of another width, and the reset access. -/
theorem witness_accesses :
    (base.withHost [.read 0x2C 4]).pending = .read 0x2C 4 :: [] ∧
    (base.withHost [.write 0x00 4 7#32]).pending = .write 0x00 4 7#32 :: [] ∧
    (0x30 ≤ 0x30 ∧ 0x2E % 4 ≠ 0 ∧ 2 ≠ 4) ∧ (0x2C % 4 = 0 ∧ 0x2C < 0x30) ∧
    (base.withHost [.reset]).pending = .reset :: [] := ⟨rfl, rfl, by decide, by decide, rfl⟩

/-- ResetStateOfTheBlock: an instance of each kind exists after reset, whatever the parameters. -/
theorem witness_ResetStateOfTheBlock :
    Buf.reset 8 ∈ State.reset.buf8 ∧ Buf.reset 32 ∈ State.reset.buf32 ∧ Buf.reset 256 ∈ State.reset.buf256 ∧
    Osc.reset ∈ State.reset.osc := by
  simp [State.reset, Config.Params.numBuf8, Config.Params.numBuf32, Config.Params.numBuf256, Config.Params.numOsc]

/-- ConsequencesOfReset: a block with fresh instances, a spline step there that answers without a fault, and a step that
leaves the record clear. -/
theorem witness_ConsequencesOfReset :
    base.osc[(0#8).toNat]? = some Osc.reset ∧ base.buf256[(1#8).toNat]? = some (Buf.reset 256) ∧
    (∃ t, exec (.ostep 0#8 .spline 0#4) base = .next t ∧ t.faulted = false) ∧
    step base = .next base ∧ base.status = 0#32 ∧ base.fcmd = 0#32 ∧ base.faulted = false := by
  refine ⟨rfl, rfl, ?_, rfl, rfl, rfl, rfl⟩
  have hr : inRange Config.params 0#4 (0#32 >>> (Config.params.phaseShift 0#4).val) 0#32 = true := by
    simp [inRange, leftIndex, leftTable]
  have hy := splineEval_inRange Config.params 0#4 _ 0#32 none .raw (by simp [Config.Params.numFam]) hr
  have he : oscEval Config.params .spline 0#4 Osc.reset.advance Osc.reset.morph = (Except.ok _ : Except Cause Word) :=
    congrArg (Except.map Prod.fst) hy
  exact ⟨_, oscStep_ok rfl he, rfl⟩

/-- StepKeepsTheInvariant: the reset state with an illegal word pending meets the invariant and steps. -/
theorem witness_StepKeepsTheInvariant :
    Invariant (State.reset.withHost [.write 0x00 4 1#32]) ∧
    step (State.reset.withHost [.write 0x00 4 1#32]) = .next { State.reset with status := 3#32, fcmd := 1#32 } :=
  ⟨⟨.inl ⟨rfl, rfl⟩, by simp [InstanceCounts, State.reset]⟩, rfl⟩

/-- A strict machine with one access pending and nothing written. -/
def fresh (a : Access) : Tracked := { state := base.withHost [a], written := [] }

/-- StrictMachineStopsAtUnwrittenRegisters: a command that reads an unwritten operand, and a read of an unwritten result. -/
theorem witness_StrictMachineStops :
    (fresh (.write 0x00 4 0x10#32)).state.faulted = false ∧ decode 0x10#32 = .ok .mul16 ∧
    instancesExist .mul16 (fresh (.write 0x00 4 0x10#32)).state = true ∧ .opb ∈ operandsRead .mul16 ∧
    .opb ∉ (fresh (.write 0x00 4 0x10#32)).written ∧ .res1 ∉ (fresh (.read (HostReg.offset .res1) 4)).written ∧
    strictStep (fresh (.write 0x00 4 0x10#32)) = .fault (.unwrittenRegister .opa) ∧
    strictStep (fresh (.read (HostReg.offset .res1) 4)) = .fault (.unwrittenRegister .res1) := by
  refine ⟨rfl, rfl, rfl, by decide, by decide, by decide, rfl, rfl⟩

/-- StrictMachineStopsAtUnwrittenRegisters, UnwrittenRegistersReachNothing: a strict step that goes on, with OPB unwritten
after it and OPA written by it. -/
theorem witness_UnwrittenRegistersReachNothing :
    HostReg.opb ∈ unspecifiedAtReset ∧ .opb ∉ (fresh (.write 0x04 4 5#32)).written ∧
    HostReg.opa ∈ unspecifiedAtReset ∧ .opa ∉ (fresh (.write 0x04 4 5#32)).written ∧ HostReg.opa ∈ [HostReg.opa] ∧
    strictStep (fresh (.write 0x04 4 5#32)) = .next { state := { base with opa := 5#32 }, written := [.opa] } := by
  refine ⟨by decide, by decide, by decide, by decide, by decide, rfl⟩

end Tests
end Sys2Proof
end

section
/-!
SUPPORT. The opcode map and the decoder: what a row of the map says of its commands, which fields a format admits, and
when a word is a command, of which row, or of none (30_encoding.md R56 to R58, R63).
-/

namespace Sys2Proof

/-! ### The opcode map -/

/-- No opcode stands in two rows of the map (30_encoding.md R56). -/
theorem opcodeMap_nodup : (opcodeMap.map Prod.fst).Nodup := by decide

/-- The map is a table: a row is found under its own opcode, and nothing else is found there. -/
theorem lookup_opcodeMap_iff {op : BitVec 8} {form : Form} :
    opcodeMap.lookup op = some form ↔ (op, form) ∈ opcodeMap := by
  rw [List.lookup_eq_some_iff]
  constructor
  · rintro ⟨before, after, hmap, -⟩
    simp [hmap]
  · intro hmem
    obtain ⟨before, after, hmap⟩ := List.append_of_mem hmem
    refine ⟨before, after, hmap, fun row hrow => ?_⟩
    have hnodup := opcodeMap_nodup
    simp only [hmap, List.map_append, List.map_cons, List.nodup_append] at hnodup
    obtain ⟨-, -, hdisjoint⟩ := hnodup
    exact bne_iff_ne.mpr (hdisjoint row.1 (List.mem_map_of_mem hrow) op (by simp)).symm

/-- What a row of the opcode map promises of its commands: they carry its opcode, and their fields stand where the
format puts them (30_encoding.md R49 to R54, R56). -/
def Form.AgreesWith (form : Form) (op : BitVec 8) : Prop :=
  match form with
  | .n cmd => cmd.opcode = op ∧ cmd.fields = 0#32
  | .s mk => ∀ n, (mk n).opcode = op ∧ (mk n).fields = n.setWidth 32 <<< 8
  | .i mk => ∀ id, (mk id).opcode = op ∧ (mk id).fields = id.setWidth 32 <<< 8
  | .f mk => ∀ fam, (mk fam).opcode = op ∧ (mk fam).fields = fam.setWidth 32 <<< 8
  | .o mk => ∀ id src fam, (mk id src fam).opcode = op ∧ (mk id src fam).fields = stepFields id src fam
  | .r mk => ∀ id sel,
    (mk id sel).opcode = op ∧ (mk id sel).fields = (id.setWidth 32 <<< 8 ||| sel.number <<< 16)

/-- Every row keeps its promise, row by row of the map. -/
theorem opcodeMap_agrees : ∀ e ∈ opcodeMap, e.2.AgreesWith e.1 := by
  simp [opcodeMap, opcodesArith, opcodesBuffer, opcodesInterp, opcodesSplineOsc, opcodesFold, Form.AgreesWith,
    Instr.opcode, Instr.fields]

/-- A command made from a row carries that row's opcode. -/
theorem opcode_of_command {form : Form} {op : BitVec 8} {c : Word} {i : Instr} (hform : form.AgreesWith op)
    (h : form.command c = .ok i) : i.opcode = op := by
  cases form with
  | n cmd => cases h; exact hform.1
  | s mk => cases h; exact (hform _).1
  | i mk => cases h; exact (hform _).1
  | f mk => cases h; exact (hform _).1
  | o mk =>
    simp only [Form.command] at h
    split at h
    · cases h; exact (hform _ _ _).1
    · cases h
  | r mk =>
    simp only [Form.command] at h
    split at h
    · cases h; exact (hform _ _).1
    · cases h

/-! ### The field values a format admits -/

/-- The side conditions of formats O and R on a word's fields (30_encoding.md R57 (c), (d), R63). -/
def Format.AdmitsFields (format : Format) (c : Word) : Prop :=
  (format = .o → c.getLsbD 16 = false → c.extractLsb' 20 4 = 0#4) ∧
    (format = .r → (c.extractLsb' 16 3).toNat ≤ 4)

/-- R53: a word of format O names a family only with the spline source. -/
theorem source_admitsFamily_iff (c : Word) :
    (sourceField c).admitsFamily (stepFamilyField c) = true ↔ (c.getLsbD 16 = false → c.extractLsb' 20 4 = 0#4) := by
  cases h : c.getLsbD 16 <;> simp [sourceField, -BitVec.getLsbD_eq_getElem, h, Source.admitsFamily, stepFamilyField]

/-- R54: selectors 0 to 4 name a field. -/
theorem ofSelector_isSome_iff (sel : BitVec 3) : (OscField.ofSelector sel).isSome ↔ sel.toNat ≤ 4 := by
  revert sel; decide

/-- The last encoding checks pass exactly when the fields are admitted. -/
theorem command_isOk_iff (form : Form) (c : Word) :
    (∃ i, form.command c = .ok i) ↔ form.format.AdmitsFields c := by
  cases form with
  | n cmd | s mk | i mk | f mk => simp [Form.command, Form.format, Format.AdmitsFields]
  | o mk =>
    simp only [Form.command, Form.format, Format.AdmitsFields, ← source_admitsFamily_iff]
    split <;> simp_all
  | r mk =>
    simp only [Form.command, Form.format, Format.AdmitsFields, ← ofSelector_isSome_iff]
    split <;> simp_all [selectorField]

/-! ### The decoder -/

/-- A word with a row's opcode: the reserved bits of the row's format, then its fields, decide (30_encoding.md R58). -/
theorem decode_of_row {e : BitVec 8 × Form} (he : e ∈ opcodeMap) {c : Word} (hop : opcodeField c = e.1) :
    decode c = if c &&& e.2.format.reservedMask ≠ 0#32 then .error .reservedBit else e.2.command c := by
  simp only [decode, hop, lookup_opcodeMap_iff.mpr he]

/-- A word whose opcode is in no row is illegal (30_encoding.md R57 (a)). -/
theorem decode_of_no_row {c : Word} (h : ∀ e ∈ opcodeMap, opcodeField c ≠ e.1) : decode c = .error .unknownOpcode := by
  have hlookup : opcodeMap.lookup (opcodeField c) = none :=
    List.lookup_eq_none_iff.mpr fun e he => bne_iff_ne.mpr (h e he)
  simp only [decode, hlookup]

theorem decode_isOk_iff_of_row {e : BitVec 8 × Form} (he : e ∈ opcodeMap) {c : Word} (hop : opcodeField c = e.1) :
    (∃ i, decode c = .ok i) ↔ c &&& e.2.format.reservedMask = 0#32 ∧ e.2.format.AdmitsFields c := by
  rw [decode_of_row he hop, ← command_isOk_iff]
  split <;> simp_all

/-- A decoded command has the opcode of its word. -/
theorem opcode_of_decode {c : Word} {i : Instr} (h : decode c = .ok i) : i.opcode = opcodeField c := by
  by_cases hrow : ∃ e ∈ opcodeMap, opcodeField c = e.1
  · obtain ⟨e, he, hop⟩ := hrow
    rw [decode_of_row he hop] at h
    split at h
    · cases h
    · exact (opcode_of_command (opcodeMap_agrees e he) h).trans hop.symm
  · rw [decode_of_no_row fun e he hop => hrow ⟨e, he, hop⟩] at h
    cases h

/-- R63 for one row: its commands are the words with its opcode, clear reserved bits and admitted fields. -/
theorem decode_row_iff {e : BitVec 8 × Form} (he : e ∈ opcodeMap) (c : Word) :
    (∃ i, decode c = .ok i ∧ i.opcode = e.1) ↔
      opcodeField c = e.1 ∧ c &&& e.2.format.reservedMask = 0#32 ∧ e.2.format.AdmitsFields c := by
  constructor
  · rintro ⟨i, hi, hop⟩
    have hfield : opcodeField c = e.1 := (opcode_of_decode hi).symm.trans hop
    exact ⟨hfield, (decode_isOk_iff_of_row he hfield).mp ⟨i, hi⟩⟩
  · rintro ⟨hfield, hlegal⟩
    obtain ⟨i, hi⟩ := (decode_isOk_iff_of_row he hfield).mpr hlegal
    exact ⟨i, hi, (opcode_of_decode hi).trans hfield⟩

/-- R57: a word is illegal exactly when no row has its opcode, or its row refuses a reserved bit or a field. -/
theorem decode_isError_iff (c : Word) :
    (∃ err, decode c = .error err) ↔
      (∀ e ∈ opcodeMap, opcodeField c ≠ e.1) ∨
        ∃ e ∈ opcodeMap, opcodeField c = e.1 ∧
          (c &&& e.2.format.reservedMask ≠ 0#32 ∨ ¬ e.2.format.AdmitsFields c) := by
  have hnot_ok : (∃ err, decode c = .error err) ↔ ¬ ∃ i, decode c = .ok i := by cases decode c <;> simp
  constructor
  · intro herr
    by_cases hrow : ∃ e ∈ opcodeMap, opcodeField c = e.1
    · obtain ⟨e, he, hop⟩ := hrow
      rw [hnot_ok, decode_isOk_iff_of_row he hop, not_and_or] at herr
      exact .inr ⟨e, he, hop, herr⟩
    · exact .inl fun e he hop => hrow ⟨e, he, hop⟩
  · rintro (hno | ⟨e, he, hop, hrefused⟩)
    · exact ⟨_, decode_of_no_row hno⟩
    · rwa [hnot_ok, decode_isOk_iff_of_row he hop, not_and_or]

end Sys2Proof
end

section
/-!
SUPPORT. Which words are commands: the match and mask of 30_encoding.md R63, the illegal words of R57 and the fault they
take.
-/

namespace Sys2Proof

open Machine Safety

/-! ### Match and mask -/

/-- A word matches an opcode under a format's mask exactly when the opcode is its low byte and its reserved bits are 0
(30_encoding.md R63). -/
theorem and_mask_eq_opcode_iff (c : Word) (op : BitVec 8) (format : Format) :
    c &&& (0xFF#32 ||| format.reservedMask) = op.setWidth 32 ↔
      opcodeField c = op ∧ c &&& format.reservedMask = 0#32 := by
  have hspare : ∀ k < 8, format.reservedMask.getLsbD k = false := by cases format <;> decide
  have hlow : ∀ k < 32, (0xFF#32).getLsbD k = decide (k < 8) := by decide
  simp only [BitVec.eq_of_getLsbD_eq_iff, opcodeField, BitVec.getLsbD_and, BitVec.getLsbD_or,
    BitVec.getLsbD_extractLsb', BitVec.getLsbD_setWidth, BitVec.getLsbD_zero]
  -- Below bit 8 the mask passes every bit of `c` and no bit is reserved; from bit 8 on the opcode has no bit.
  have hop_high : ∀ k, 8 ≤ k → op.getLsbD k = false := BitVec.getLsbD_of_ge op
  constructor
  · intro hmatch
    refine ⟨fun k hk => ?_, fun k hk => ?_⟩
    · have hbit := hmatch k (by omega)
      grind
    · have hbit := hmatch k hk
      grind
  · rintro ⟨hop, hclear⟩ k hk
    grind

/-- Settles O3: the decoder's checks, row by row, are the match under the mask and the two side conditions. -/
theorem matchAndMaskDecideTheCommand : Obligations.MatchAndMaskDecideTheCommand := by
  refine ⟨fun e he c => ?_, by decide⟩
  rw [decode_row_iff he, and_mask_eq_opcode_iff, and_assoc]
  rfl

/-! ### The illegal words and their fault -/

/-- R56, R57 (a): the opcodes in no row are the reserved ranges. -/
theorem opcode_in_no_row_iff (op : BitVec 8) :
    (∀ e ∈ opcodeMap, op ≠ e.1) ↔
      ((1 ≤ op.toNat ∧ op.toNat ≤ 0x0F) ∨ (0x16 ≤ op.toNat ∧ op.toNat ≤ 0x1F) ∨
       (0x26 ≤ op.toNat ∧ op.toNat ≤ 0x2F) ∨ (0x38 ≤ op.toNat ∧ op.toNat ≤ 0x3F) ∨
       (0x44 ≤ op.toNat ∧ op.toNat ≤ 0x4F) ∨ (0x58 ≤ op.toNat ∧ op.toNat ≤ 0x5F) ∨
       0x63 ≤ op.toNat) := by
  revert op; decide

theorem opcodeField_toNat (c : Word) : (opcodeField c).toNat = c.toNat % 256 := by
  simp [opcodeField]

theorem opcodeField_eq_iff (c : Word) (op : BitVec 8) : opcodeField c = op ↔ op.toNat = c.toNat % 256 := by
  rw [← opcodeField_toNat, BitVec.toNat_inj, eq_comm]

/-- The field values a format refuses, in arithmetic (30_encoding.md R57 (c), (d)). -/
theorem not_admitsFields_iff (format : Format) (c : Word) :
    ¬ format.AdmitsFields c ↔
      (format = .o ∧ c.toNat / 2 ^ 16 % 2 = 0 ∧ c.toNat / 2 ^ 20 % 16 ≠ 0) ∨
        (format = .r ∧ 5 ≤ c.toNat / 2 ^ 16 % 8) := by
  have hsource : c.getLsbD 16 = false ↔ c.toNat / 2 ^ 16 % 2 = 0 := by
    simp [BitVec.getLsbD, Nat.testBit_eq_decide_div_mod_eq]
  have hfamily : c.extractLsb' 20 4 = 0#4 ↔ c.toNat / 2 ^ 20 % 16 = 0 := by
    simp [← BitVec.toNat_inj, Nat.shiftRight_eq_div_pow]
  have hselector : (c.extractLsb' 16 3).toNat = c.toNat / 2 ^ 16 % 8 := by
    simp [Nat.shiftRight_eq_div_pow]
  rw [Format.AdmitsFields, hsource, hfamily, hselector]
  grind

/-- The fault word is STATUS with FAULT and the cause's code written (60_exceptions.md R131, R133). -/
theorem raise_eq_faultEntry {s : State} (h : s.faulted = false) (cause : Cause) (c : Word) :
    s.raise cause c = faultEntry s cause.code.toNat c := by
  rw [State.raise_eq h, faultEntry]
  cases cause <;> simp [faultStatus, Cause.code, BitVec.or_assoc]

/-- Issuing a word that is no command takes the ILLEGAL fault (30_encoding.md R57, R58). -/
theorem issue_of_decode_error {c : Word} {s : State} {err : DecodeError} (hs : s.faulted = false)
    (h : decode c = .error err) : issue c s = .next (faultEntry s 1 c) := by
  simp only [issue, hs, h, raise_eq_faultEntry hs]
  rfl

/-- Settles O4: the refusals of the decoder, with each field read arithmetically. -/
theorem illegalWordsAndTheirFault : Obligations.IllegalWordsAndTheirFault := by
  refine ⟨fun c => ?_, fun c s hs ⟨err, herr⟩ => issue_of_decode_error hs herr⟩
  rw [decode_isError_iff, opcode_in_no_row_iff, opcodeField_toNat]
  refine or_congr_right ?_
  simp only [opcodeField_eq_iff, not_admitsFields_iff, and_or_left, exists_or]

end Sys2Proof
end

section
/-!
SUPPORT. The encoder's words as sums, and the assembler's operands (30_encoding.md R60, R61).
-/

namespace Sys2Proof

open Machine

/-! ### The encoded word as a sum (R60) -/

/-- The opcode byte and what stands above it do not overlap: their join is their sum. -/
theorem setWidth_or_shift_eq_ofNat (op : BitVec 8) (x : Word) :
    op.setWidth 32 ||| x <<< 8 = BitVec.ofNat 32 (op.toNat + x.toNat * 2 ^ 8) := by
  have hdisjoint : op.setWidth 32 &&& x <<< 8 = 0#32 := by
    apply BitVec.eq_of_getLsbD_eq
    intro k hk
    by_cases h8 : k < 8
    · simp [h8]
    · simp [BitVec.getLsbD_of_ge op k (by omega)]
  rw [← BitVec.add_eq_or_of_and_eq_zero _ _ hdisjoint]
  apply BitVec.eq_of_toNat_eq
  have := op.isLt
  simp [BitVec.toNat_shiftLeft, Nat.shiftLeft_eq]

theorem encode_eq_ofNat {i : Instr} {op : BitVec 8} {x : Word} (hop : i.opcode = op) (hfields : i.fields = x <<< 8) :
    encode i = BitVec.ofNat 32 (op.toNat + x.toNat * 2 ^ 8) := by
  rw [encode, hop, hfields, setWidth_or_shift_eq_ofNat]

/-- The eight bits of an id and the fields above them do not overlap: their join is their sum. -/
theorem id_or_shift_toNat (id : BitVec 8) (y : Word) (hy : y.toNat < 2 ^ 24) :
    (id.setWidth 32 ||| y <<< 8).toNat = id.toNat + y.toNat * 2 ^ 8 := by
  have := id.isLt
  rw [setWidth_or_shift_eq_ofNat, BitVec.toNat_ofNat, Nat.mod_eq_of_lt (by omega)]

theorem source_or_family_toNat (src : Source) (fam : BitVec 4) :
    (src.number ||| fam.setWidth 32 <<< 4).toNat = src.number.toNat + fam.toNat * 2 ^ 4 := by
  cases src <;> revert fam <;> decide

/-- R53, R60: the fields of a step command are its number `id + src·2^8 + fam·2^12`, above the opcode. -/
theorem stepFields_eq_shift_of_toNat (id : BitVec 8) (src : Source) (fam : BitVec 4) :
    ∃ x : Word, stepFields id src fam = x <<< 8 ∧
      x.toNat = id.toNat + (src.number.toNat + fam.toNat * 2 ^ 4) * 2 ^ 8 := by
  refine ⟨id.setWidth 32 ||| (src.number ||| fam.setWidth 32 <<< 4) <<< 8, ?_, ?_⟩
  · rw [stepFields_eq_byte, BitVec.shiftLeft_or_distrib src.number, ← BitVec.shiftLeft_add, BitVec.or_assoc]
  · have hfam := fam.isLt
    have hsrc : src.number.toNat ≤ 1 := by cases src <;> decide
    rw [id_or_shift_toNat _ _ (by rw [source_or_family_toNat]; omega), source_or_family_toNat]

/-! ### The words of a row's commands -/

section
variable {e : BitVec 8 × Form} (he : e ∈ opcodeMap)
include he

theorem encode_formatS {mk : BitVec 5 → Instr} (hmk : e.2 = .s mk) (n : BitVec 5) :
    encode (mk n) = BitVec.ofNat 32 (e.1.toNat + n.toNat * 2 ^ 8) := by
  have hrow : (Form.s mk).AgreesWith e.1 := hmk ▸ opcodeMap_agrees e he
  obtain ⟨hop, hfields⟩ := hrow n
  rw [encode_eq_ofNat hop hfields, BitVec.toNat_setWidth_of_le (by decide)]

theorem encode_formatI {mk : BitVec 8 → Instr} (hmk : e.2 = .i mk) (id : BitVec 8) :
    encode (mk id) = BitVec.ofNat 32 (e.1.toNat + id.toNat * 2 ^ 8) := by
  have hrow : (Form.i mk).AgreesWith e.1 := hmk ▸ opcodeMap_agrees e he
  obtain ⟨hop, hfields⟩ := hrow id
  rw [encode_eq_ofNat hop hfields, BitVec.toNat_setWidth_of_le (by decide)]

theorem encode_formatF {mk : BitVec 4 → Instr} (hmk : e.2 = .f mk) (fam : BitVec 4) :
    encode (mk fam) = BitVec.ofNat 32 (e.1.toNat + fam.toNat * 2 ^ 8) := by
  have hrow : (Form.f mk).AgreesWith e.1 := hmk ▸ opcodeMap_agrees e he
  obtain ⟨hop, hfields⟩ := hrow fam
  rw [encode_eq_ofNat hop hfields, BitVec.toNat_setWidth_of_le (by decide)]

theorem encode_formatO {mk : BitVec 8 → Source → BitVec 4 → Instr} (hmk : e.2 = .o mk) (id : BitVec 8) (src : Source)
    (fam : BitVec 4) :
    encode (mk id src fam) =
      BitVec.ofNat 32 (e.1.toNat + id.toNat * 2 ^ 8 + src.number.toNat * 2 ^ 16 + fam.toNat * 2 ^ 20) := by
  have hrow : (Form.o mk).AgreesWith e.1 := hmk ▸ opcodeMap_agrees e he
  obtain ⟨hop, hfields⟩ := hrow id src fam
  obtain ⟨x, hshift, hx⟩ := stepFields_eq_shift_of_toNat id src fam
  rw [encode_eq_ofNat hop (hfields.trans hshift), hx]
  ring_nf

theorem encode_formatR {mk : BitVec 8 → OscField → Instr} (hmk : e.2 = .r mk) (id : BitVec 8) (sel : OscField) :
    encode (mk id sel) = BitVec.ofNat 32 (e.1.toNat + id.toNat * 2 ^ 8 + sel.number.toNat * 2 ^ 16) := by
  have hrow : (Form.r mk).AgreesWith e.1 := hmk ▸ opcodeMap_agrees e he
  obtain ⟨hop, hfields⟩ := hrow id sel
  have hsel : sel.number.toNat < 2 ^ 24 := by cases sel <;> decide
  rw [encode_eq_ofNat hop (hfields.trans (readFields_eq_byte id sel)), id_or_shift_toNat _ _ hsel]
  ring_nf

end

/-! ### The assembler's operands (R60) -/

/-- An operand check passes a command on to the encoder, or refuses it. -/
theorem map_encode_ite {p : Prop} [Decidable p] {i : Instr} {w : Word} (h : p → encode i = w) :
    (if p then some i else none).map encode = if p then some w else none := by
  by_cases hp : p
  · simp [hp, h hp]
  · simp [hp]

/-- An operand below `2 ^ n` is held whole in a field of `n` bits. -/
theorem operand_toNat {n k : Nat} (h : k < 2 ^ n) : (BitVec.ofNat n k).toNat = k := by
  rw [BitVec.toNat_ofNat, Nat.mod_eq_of_lt h]

section
variable {e : BitVec 8 × Form} (he : e ∈ opcodeMap)
include he

theorem asmWidth_encode {mk : BitVec 5 → Instr} (hmk : e.2 = .s mk) (bits : Nat) :
    (asmWidth mk bits).map encode =
      if 1 ≤ bits ∧ bits ≤ 32 then some (BitVec.ofNat 32 (e.1.toNat + (bits - 1) * 2 ^ 8)) else none :=
  map_encode_ite fun ⟨hlo, hhi⟩ => by rw [encode_formatS he hmk, operand_toNat (by omega)]

theorem asmInstance_encode {mk : BitVec 8 → Instr} (hmk : e.2 = .i mk) (id : Nat) :
    (asmInstance mk id).map encode =
      if id ≤ 255 then some (BitVec.ofNat 32 (e.1.toNat + id * 2 ^ 8)) else none :=
  map_encode_ite fun hid => by rw [encode_formatI he hmk, operand_toNat (by omega)]

theorem asmFamily_encode {mk : BitVec 4 → Instr} (hmk : e.2 = .f mk) (fam : Nat) :
    (asmFamily mk fam).map encode =
      if fam ≤ 15 then some (BitVec.ofNat 32 (e.1.toNat + fam * 2 ^ 8)) else none :=
  map_encode_ite fun hfam => by rw [encode_formatF he hmk, operand_toNat (by omega)]

theorem asmStepSine_encode {mk : BitVec 8 → Source → BitVec 4 → Instr} (hmk : e.2 = .o mk) (id : Nat) :
    (asmStepSine mk id).map encode =
      if id ≤ 255 then some (BitVec.ofNat 32 (e.1.toNat + id * 2 ^ 8)) else none :=
  map_encode_ite fun hid => by
    rw [encode_formatO he hmk, operand_toNat (by omega)]
    simp [Source.number]

theorem asmStepSpline_encode {mk : BitVec 8 → Source → BitVec 4 → Instr} (hmk : e.2 = .o mk) (id fam : Nat) :
    (asmStepSpline mk id fam).map encode =
      if id ≤ 255 ∧ fam ≤ 15 then some (BitVec.ofNat 32 (e.1.toNat + id * 2 ^ 8 + 2 ^ 16 + fam * 2 ^ 20)) else none :=
  map_encode_ite fun ⟨hid, hfam⟩ => by
    rw [encode_formatO he hmk, operand_toNat (by omega), operand_toNat (by omega)]
    simp [Source.number]

end

/-- The number of the field an ORD line names is the place of its name among the five. -/
theorem asmField_number (name : String) :
    (asmField name).map (fun sel => sel.number.toNat) = ["freq", "phase", "pm", "lastpm", "morph"].idxOf? name := by
  by_cases hname : name ∈ ["freq", "phase", "pm", "lastpm", "morph"]
  · simp only [List.mem_cons, List.not_mem_nil, or_false] at hname
    rcases hname with rfl | rfl | rfl | rfl | rfl <;> rfl
  · rw [List.idxOf?_eq_none_iff.mpr hname]
    simp only [List.mem_cons, List.not_mem_nil, or_false, not_or] at hname
    obtain ⟨hfreq, hphase, hpm, hlastpm, hmorph⟩ := hname
    simp [asmField, hfreq, hphase, hpm, hlastpm, hmorph]

theorem asmRead_encode (id : Nat) (name : String) :
    (asmRead id name).map encode =
      if id ≤ 255 then (["freq", "phase", "pm", "lastpm", "morph"].idxOf? name).map fun sel =>
        BitVec.ofNat 32 (0x57 + id * 2 ^ 8 + sel * 2 ^ 16) else none := by
  by_cases hid : id ≤ 255
  · have hword (sel : OscField) : encode (.ord (BitVec.ofNat 8 id) sel) =
        BitVec.ofNat 32 (0x57 + id * 2 ^ 8 + sel.number.toNat * 2 ^ 16) := by
      rw [encode_formatR (e := (0x57#8, .r .ord)) (lookup_opcodeMap_iff.mp rfl) rfl,
        operand_toNat (k := id) (by omega)]
      rfl
    simp only [asmRead, hid, if_true, ← asmField_number, Option.map_map, Function.comp_def, hword]
  · simp only [asmRead, hid, if_false, Option.map_none]

/-- Settles O7: each operand check of the assembler guards the word of its format's row. -/
theorem assemblerEncodesOrRefuses : Obligations.AssemblerEncodesOrRefuses :=
  ⟨asmWidth_encode (e := (0x13#8, .s .satu)) (lookup_opcodeMap_iff.mp rfl) rfl,
    asmWidth_encode (e := (0x14#8, .s .sats)) (lookup_opcodeMap_iff.mp rfl) rfl,
    fun _ he _ hmk => asmInstance_encode he hmk,
    fun _ he _ hmk => asmFamily_encode he hmk,
    fun _ he _ hmk => ⟨asmStepSine_encode he hmk, asmStepSpline_encode he hmk⟩,
    asmRead_encode, rfl, rfl, fun _ => rfl⟩

end Sys2Proof
end

section
/-!
SUPPORT. The exact 64-bit product and the laws of `mul` (41_arith.md R64 to R66).
-/

namespace Sys2Proof
namespace Machine

open Safety

/-! ### The exact product -/

theorem word_toInt_bounds (x : Word) : -2 ^ 31 ≤ x.toInt ∧ x.toInt ≤ 2 ^ 31 - 1 :=
  ⟨BitVec.le_toInt x, BitVec.toInt_le⟩

/-- The extreme products are those of the most negative word with the most positive one and with itself
(41_arith.md R65 (a)). -/
theorem product_bounds (a b : Word) :
    -2 ^ 62 + 2 ^ 31 ≤ a.toInt * b.toInt ∧ a.toInt * b.toInt ≤ 2 ^ 62 := by
  obtain ⟨ha, ha'⟩ := word_toInt_bounds a
  obtain ⟨hb, hb'⟩ := word_toInt_bounds b
  constructor <;> nlinarith

theorem toInt_signExtend_word (a : Word) : (a.signExtend 64).toInt = a.toInt :=
  BitVec.toInt_signExtend_of_le (by decide)

/-- The signed 64-bit product does not overflow (41_arith.md R65 (a)). -/
theorem toInt_product (a b : Word) : (a.signExtend 64 * b.signExtend 64).toInt = a.toInt * b.toInt := by
  obtain ⟨hlo, hhi⟩ := product_bounds a b
  rw [BitVec.toInt_mul, toInt_signExtend_word, toInt_signExtend_word, Int.bmod_eq_of_le] <;> omega

/-- A signed and an unsigned multiply have the same low 64 bits (41_arith.md R65 (b)). -/
theorem unsigned_product_eq_signed (x y : BitVec 64) :
    BitVec.ofNat 64 (x.toNat * y.toNat) = BitVec.ofInt 64 (x.toInt * y.toInt) := by
  rw [BitVec.ofNat_mul, BitVec.ofInt_mul]
  simp

/-! ### `mul` as a shift of the product -/

/-- Overflow is the quotient reduced modulo 2^32 (41_arith.md R65 (g)). -/
theorem toInt_mul_word (a b : Word) (f : Nat) : (mul a b f).toInt = (a.toInt * b.toInt / 2 ^ f).bmod (2 ^ 32) := by
  rw [mul_eq_div, trunc32, BitVec.toInt_ofInt]

theorem setWidth_sshiftRight_product (a b : Word) (f : Nat) :
    ((a.signExtend 64 * b.signExtend 64).sshiftRight f).setWidth 32 = mul a b f := by
  apply BitVec.eq_of_toInt_eq
  rw [← BitVec.signExtend_eq_setWidth_of_le _ (by decide),
    BitVec.toInt_signExtend_eq_toInt_bmod_of_le _ (by decide), BitVec.toInt_sshiftRight, toInt_product,
    Int.shiftRight_eq_div_pow, toInt_mul_word]
  rfl

/-- The low 32 bits of a 64-bit word shifted right by at most 32 are bits F+31:F, whatever is shifted in above
(41_arith.md R65 (a)). -/
theorem setWidth_sshiftRight_eq_extract (x : BitVec 64) {f : Nat} (hf : f ≤ 32) :
    (x.sshiftRight f).setWidth 32 = x.extractLsb' f 32 := by
  apply BitVec.eq_of_getLsbD_eq
  intro k hk
  have hin : f + k < 64 := by omega
  have hword : k < 64 := by omega
  simp [BitVec.getElem_sshiftRight, hk, hin, hword]

/-- R64: `mul` is bits F+31:F of the product. -/
theorem mul_eq_productBits (a b : Word) {f : Nat} (hf : f ≤ 32) : mul a b f = productBits a b f := by
  rw [← setWidth_sshiftRight_product, setWidth_sshiftRight_eq_extract _ hf, productBits]

theorem setWidth_ushiftRight_product (a b : Word) {f : Nat} (hf : f ≤ 32) :
    ((a.signExtend 64 * b.signExtend 64) >>> f).setWidth 32 = mul a b f := by
  rw [BitVec.setWidth_ushiftRight_eq_extractLsb, mul_eq_productBits a b hf, productBits]

/-- Bits 46:15 of a 64-bit word, packed from its halves (41_arith.md R66). -/
theorem pack_halves (x : BitVec 64) :
    (x.extractLsb' 32 32 <<< 17 ||| x.extractLsb' 0 32 >>> 15) = x.extractLsb' 15 32 := by
  apply BitVec.eq_of_getLsbD_eq
  intro k hk
  by_cases hlow : k < 17
  · have hin : 15 + k < 32 := by omega
    simp [hk, hlow, hin]
  · have hout : ¬ 15 + k < 32 := by omega
    have hidx : 32 + (k - 17) = 15 + k := by omega
    simp [hk, hlow, hout, hidx]

/-! ### The laws of `mul` (41_arith.md R65) -/

theorem mul_swap_operands (a b : Word) (f : Nat) : mul a b f = mul b a f := by
  rw [mul, mul, Int.mul_comm]

theorem mul_zero_word (a : Word) (f : Nat) : mul a 0#32 f = 0#32 := by
  simp [mul, trunc32]

theorem toInt_twoPow {f : Nat} (hf : f ≤ 30) : (BitVec.ofNat 32 (2 ^ f)).toInt = 2 ^ f := by
  have hlt : (2 : Int) ^ f ≤ 2 ^ 30 := pow_le_pow_right₀ (by decide) hf
  have hpos : (0 : Int) < 2 ^ f := by positivity
  rw [BitVec.toInt_ofNat', Nat.cast_pow, Nat.cast_ofNat, Int.bmod_eq_of_le] <;> omega

/-- `2^F` is the one of a format with F fraction bits. -/
theorem mul_one_of_format (a : Word) {f : Nat} (hf : f ≤ 30) : mul a (BitVec.ofNat 32 (2 ^ f)) f = a := by
  rw [mul_eq_div, toInt_twoPow hf, Int.mul_ediv_cancel _ (by positivity), trunc32_of_toInt]

/-- The square 2^62 of the most negative word is a multiple of 2^32 after the shift. -/
theorem mul_minimum_sq {f : Nat} (hf : f ≤ 30) : mul 0x80000000#32 0x80000000#32 f = 0#32 := by
  have hsq : (0x80000000#32).toInt * (0x80000000#32).toInt = 2 ^ 32 * 2 ^ (30 - f) * 2 ^ f := by
    rw [mul_assoc, ← pow_add, Nat.sub_add_cancel hf]
    decide
  rw [mul_eq_div, hsq, Int.mul_ediv_cancel _ (by positivity), trunc32, BitVec.ofInt_mul]
  simp

theorem format_le_thirty {f : Nat} (hf : f ∈ [16, 24, 15]) : f ≤ 30 := by
  revert f; decide

/-- Settles O8: `mul` by floor division and as bits of the product. -/
theorem multiplyIsTheShiftedProduct : Obligations.MultiplyIsTheShiftedProduct := by
  intro a b f hf
  exact ⟨mul_eq_div a b f, mul_eq_productBits a b ((format_le_thirty hf).trans (by decide))⟩

/-- Settles O9: the laws of R65, one lemma each. -/
theorem multiplyLaws : Obligations.MultiplyLaws := by
  refine ⟨product_bounds, fun a b f hf => ?_⟩
  have hf30 := format_le_thirty hf
  exact ⟨setWidth_sshiftRight_product a b f, setWidth_ushiftRight_product a b (hf30.trans (by decide)),
    unsigned_product_eq_signed _ _, mul_swap_operands a b f, mul_one_of_format a hf30, mul_zero_word a f,
    mul_minimum_sq hf30, toInt_mul_word a b f⟩

/-- Settles O10: packing the halves takes bits 46:15 of the product. -/
theorem fifteenBitMultiplyIsShiftAndPack : Obligations.FifteenBitMultiplyIsShiftAndPack := by
  intro a b
  have hmul : mul a b 15 = (a.signExtend 64 * b.signExtend 64).extractLsb' 15 32 := mul_eq_productBits a b (by decide)
  exact ⟨(pack_halves _).trans hmul.symm, hmul⟩

end Machine
end Sys2Proof
end

section
/-!
SUPPORT. The clamps and the absolute value as integer arithmetic (41_arith.md R67 to R69).
-/

namespace Sys2Proof
namespace Machine

open Safety

/-! ### The unsigned clamp -/

/-- A narrowed integer that fits an unsigned word is its value. -/
theorem trunc32_toNat {x : Int} (hlo : 0 ≤ x) (hhi : x < 2 ^ 32) : ((trunc32 x).toNat : Int) = x := by
  rw [trunc32, BitVec.toNat_ofInt]
  omega

/-- The upper bound of a clamp to `n` bits (41_arith.md R67, R68). -/
theorem maximum_cast (n : Nat) : ((2 ^ n - 1 : Nat) : Int) = 2 ^ n - 1 := by
  push_cast [Nat.one_le_two_pow]
  rfl

theorem satU_eq (x : Word) (bits : Nat) : satU x bits = trunc32 (min (max x.toInt 0) (2 ^ bits - 1)) := by
  rw [satU, maximum_cast]

/-- R67: up to width 32 the clamped value fits an unsigned word. -/
theorem satU_toNat (x : Word) {bits : Nat} (hbits : bits ≤ 32) :
    ((satU x bits).toNat : Int) = min (max x.toInt 0) (2 ^ bits - 1) := by
  have hpos : (1 : Int) ≤ 2 ^ bits := one_le_pow₀ (by decide)
  have hpow : (2 : Int) ^ bits ≤ 2 ^ 32 := pow_le_pow_right₀ (by decide) hbits
  rw [satU_eq, trunc32_toNat] <;> omega

/-- Settles O12: the clamped value fits, so its bounds are those of `min` and `max`. -/
theorem unsignedClampStaysInRange : Obligations.UnsignedClampStaysInRange := by
  intro x bits _ hbits
  have hval := satU_toNat x hbits
  refine ⟨hval, ?_, fun hwide => ?_⟩
  · have hmax := maximum_cast bits
    omega
  · obtain ⟨-, hx⟩ := word_toInt_bounds x
    have hpow : (2 : Int) ^ 31 ≤ 2 ^ bits := pow_le_pow_right₀ (by decide) hwide
    omega

/-! ### The signed clamp -/

theorem satS_eq (x : Word) (bits : Nat) :
    satS x bits = trunc32 (min (max x.toInt (-(2 ^ (bits - 1) - 1))) (2 ^ (bits - 1) - 1)) := by
  rw [satS, maximum_cast]

/-- The range is not empty, so the two bounds may be taken in either order. -/
theorem satS_eq_clampSigned (x : Word) (bits : Nat) : satS x bits = trunc32 (clampSigned x.toInt bits) := by
  have hpos : (1 : Int) ≤ 2 ^ (bits - 1) := one_le_pow₀ (by decide)
  rw [satS_eq, clampSigned]
  congr 1
  omega

/-- R68: up to width 32 the clamped value fits a signed word. -/
theorem satS_toInt (x : Word) {bits : Nat} (hbits : bits ≤ 32) :
    (satS x bits).toInt = min (max x.toInt (-(2 ^ (bits - 1) - 1))) (2 ^ (bits - 1) - 1) := by
  have hpos : (1 : Int) ≤ 2 ^ (bits - 1) := one_le_pow₀ (by decide)
  have hpow : (2 : Int) ^ (bits - 1) ≤ 2 ^ 31 := pow_le_pow_right₀ (by decide) (by omega)
  rw [satS_eq, trunc32_toInt] <;> omega

/-- The range of width 1 is 0 alone (41_arith.md R68). -/
theorem satS_width_one (x : Word) : satS x 1 = 0#32 := by
  apply BitVec.eq_of_toInt_eq
  rw [satS_toInt x (by decide), BitVec.toInt_zero]
  omega

/-- Only the most negative word lies outside the symmetric range of width 32 (41_arith.md R68). -/
theorem satS_width_word (x : Word) : satS x 32 = if x = 0x80000000#32 then 0x80000001#32 else x := by
  split
  case isTrue hx => subst hx; decide
  case isFalse hx =>
    obtain ⟨hlo, hhi⟩ := word_toInt_bounds x
    have hne : x.toInt ≠ -2 ^ 31 := fun h => hx (BitVec.eq_of_toInt_eq h)
    apply BitVec.eq_of_toInt_eq
    rw [satS_toInt x (by decide)]
    omega

/-- Settles O13: the clamped value fits, so its bounds are those of `min` and `max`. -/
theorem signedClampIsSymmetric : Obligations.SignedClampIsSymmetric := by
  refine ⟨fun x bits _ hbits => ?_, satS_width_one, satS_width_word⟩
  have hval := satS_toInt x hbits
  have hpos : (1 : Int) ≤ 2 ^ (bits - 1) := one_le_pow₀ (by decide)
  refine ⟨hval, ?_, ?_, ?_⟩ <;> omega

/-! ### The absolute value -/

/-- The sign mask is all ones or all zeros, so `(x ^ m) - m` negates or keeps (41_arith.md R69). -/
theorem absw_eq_abs (x : Word) : absw x = x.abs := by
  have hmask : x.sshiftRight 31 = if x.msb then BitVec.allOnes 32 else 0#32 := by
    apply BitVec.eq_of_toInt_eq
    obtain ⟨hlo, hhi⟩ := word_toInt_bounds x
    rw [BitVec.toInt_sshiftRight, Int.shiftRight_eq_div_pow, BitVec.msb_eq_toInt]
    by_cases hneg : x.toInt < 0
    · have hfloor : x.toInt / 2 ^ 31 = -1 := by omega
      simpa [hneg] using hfloor
    · have hfloor : x.toInt / 2 ^ 31 = 0 := by omega
      simpa [hneg] using hfloor
  rw [absw, hmask, BitVec.abs_eq]
  split
  · rw [BitVec.xor_allOnes, BitVec.neg_eq_not_add, BitVec.sub_eq_add_neg]
    rfl
  · simp

/-- R69: the magnitude fits an unsigned word, that of the most negative word too. -/
theorem absw_toNat (x : Word) : (absw x).toNat = x.toInt.natAbs := by
  rw [absw_eq_abs, BitVec.toNat_abs, BitVec.toInt_eq_msb_cond]
  have := x.isLt
  split <;> omega

theorem absw_eq_ofNat (x : Word) : absw x = BitVec.ofNat 32 x.toInt.natAbs := by
  rw [← absw_toNat, BitVec.ofNat_toNat, BitVec.setWidth_eq]

/-- Settles O14: `absw` is the absolute value of the signed reading. -/
theorem absoluteValueIsTheMagnitude : Obligations.AbsoluteValueIsTheMagnitude :=
  ⟨absw_toNat, by decide⟩

end Machine
end Sys2Proof
end

section
/-!
SUPPORT. The arithmetic commands: the word of each, and its effect on the state (41_arith.md R70 to R75).
-/

namespace Sys2Proof
namespace Machine

/-! ### The words of format S -/

/-- The word of a width in a row of format S is decoded as that row's command (30_encoding.md R50, R60). -/
theorem decode_formatS {e : BitVec 8 × Form} (he : e ∈ opcodeMap) {mk : BitVec 5 → Instr} (hmk : e.2 = .s mk)
    (n : BitVec 5) : decode (BitVec.ofNat 32 (e.1.toNat + n.toNat * 2 ^ 8)) = .ok (mk n) := by
  have hword : BitVec.ofNat 32 (e.1.toNat + n.toNat * 2 ^ 8) = e.1.setWidth 32 ||| n.setWidth 32 <<< 8 := by
    rw [setWidth_or_shift_eq_ofNat, BitVec.toNat_setWidth_of_le (by decide)]
  have hclear : (e.1.setWidth 32 ||| n.setWidth 32 <<< 8) &&& Format.s.reservedMask = 0#32 := by
    rw [or_shift_and_mask _ _ _ (reservedMask_spares_opcode _), width_reserved]
  rw [hword, decode_of_row he (opcodeField_or_shift _ _), hmk]
  simp [Form.format, Form.command, hclear, widthField_encoded]

/-! ### Each command's effect -/

theorem exec_mul16 (s : State) : exec .mul16 s = .next (s.setRes0 (mul s.opa s.opb 16)) := rfl

theorem exec_mul24 (s : State) : exec .mul24 s = .next (s.setRes0 (mul s.opa s.opb 24)) := rfl

theorem exec_mul15 (s : State) : exec .mul15 s = .next (s.setRes0 (mul s.opa s.opb 15)) := rfl

theorem exec_satu (n : BitVec 5) (s : State) : exec (.satu n) s = .next (s.setRes0 (satU s.opa (n.toNat + 1))) := rfl

theorem exec_sats (n : BitVec 5) (s : State) : exec (.sats n) s = .next (s.setRes0 (satS s.opa (n.toNat + 1))) := rfl

theorem exec_abs (s : State) : exec .abs s = .next (s.setRes0 (absw s.opa)) := rfl

/-- Settles O11: each multiply writes RES0 alone, by floor division of the product. -/
theorem multiplyCommandsWriteTheProduct : Obligations.MultiplyCommandsWriteTheProduct := by
  refine ⟨⟨rfl, fun s => ?_⟩, ⟨rfl, fun s => ?_⟩, rfl, fun s => ?_⟩
  · rw [exec_mul16, mul_eq_div]; rfl
  · rw [exec_mul24, mul_eq_div]; rfl
  · rw [exec_mul15, mul_eq_div]; rfl

/-- Settles O15: each command writes RES0 alone, with the value of its helper in integers. -/
theorem clampAndAbsoluteCommands : Obligations.ClampAndAbsoluteCommands := by
  refine ⟨fun n => ⟨?_, fun s => ?_⟩, fun n => ⟨?_, fun s => ?_⟩, rfl, fun s => ?_⟩
  · exact decode_formatS (e := (0x13#8, .s .satu)) (lookup_opcodeMap_iff.mp rfl) rfl n
  · rw [exec_satu, satU_eq]; rfl
  · exact decode_formatS (e := (0x14#8, .s .sats)) (lookup_opcodeMap_iff.mp rfl) rfl n
  · rw [exec_sats, satS_eq_clampSigned]; rfl
  · rw [exec_abs, absw_eq_ofNat]; rfl

end Machine
end Sys2Proof
end

section
/-!
SUPPORT. Buffer storage: the slot a read names, and what a read gives after writes (42_buffer.md R76, R77, R84).
-/

namespace Sys2Proof
namespace Machine

/-! ### A write (R76) -/

theorem Buf.write_slot_fin {d : Nat} [NeZero d] (b : Buf d) (v : Word) (k : Fin d) :
    (b.write v).data[k] = if k.val = b.cursor.toNat % d then v else b.data[k] := by
  simp only [Fin.getElem_fin, Buf.write_slot, eq_comm]

theorem Buf.write_cursor_toNat {d : Nat} [NeZero d] (b : Buf d) (v : Word) :
    (b.write v).cursor.toNat = (b.cursor.toNat + 1) % 2 ^ 32 := by
  rw [Buf.write_cursor, BitVec.toNat_add, BitVec.toNat_ofNat]

/-- Settles O16: one lemma for the slots and one for the cursor, at every depth. -/
theorem bufferWriteStoresAndAdvances : Obligations.BufferWriteStoresAndAdvances :=
  ⟨fun b v => ⟨b.write_cursor_toNat v, b.write_slot_fin v⟩,
    fun b v => ⟨b.write_cursor_toNat v, b.write_slot_fin v⟩,
    fun b v => ⟨b.write_cursor_toNat v, b.write_slot_fin v⟩⟩

/-! ### The slot of a read (R77) -/

/-- Adding the inverted offset steps back from the slot last written. -/
theorem add_not_eq_sub (cursor k : Word) : cursor + ~~~k = cursor - 1#32 - k := by
  rw [BitVec.not_eq_neg_add k]
  ring

section
variable {d : Nat} (hd : d ∣ 2 ^ 32)
include hd

/-- The wrap modulo 2^32 does not disturb the slots of a depth that divides 2^32 (42_buffer.md R76). -/
theorem sub_toNat_emod (x y : Word) : ((x - y).toNat : Int) % d = (x.toNat - y.toNat) % d := by
  have hwrap : ((x - y).toNat : Int) = (x.toNat - y.toNat) % (2 ^ 32 : Nat) := by
    rw [BitVec.toNat_sub]
    omega
  rw [hwrap, Int.emod_emod_of_dvd _ (Int.natCast_dvd_natCast.mpr hd)]

/-- The slot `(cursor − 1 − k) mod d`. -/
theorem read_position (cursor k : Word) :
    (((cursor.toNat : Int) - 1 - k.toNat) % d).toNat = (cursor + ~~~k).toNat % d := by
  have hback : ((cursor - 1#32 - k).toNat : Int) % d = ((cursor.toNat : Int) - 1 - k.toNat) % d := by
    rw [sub_toNat_emod hd, Int.sub_emod, sub_toNat_emod hd, ← Int.sub_emod]
    rfl
  rw [add_not_eq_sub, ← hback]
  omega

/-- Fewer steps back than the depth stay in the slot only when there are none. -/
theorem slot_eq_slot_sub_iff (cursor : Word) {k : Word} (hk : k.toNat < d) :
    cursor.toNat % d = (cursor - k).toNat % d ↔ k = 0#32 := by
  have hback : cursor.toNat % d = (cursor - k).toNat % d ↔
      ((cursor.toNat : Int) - 0) % d = (cursor.toNat - k.toNat) % d := by
    rw [← sub_toNat_emod hd, Int.sub_zero]
    norm_cast
  rw [hback, Int.emod_sub_cancel_left, Int.zero_emod, Int.emod_eq_of_lt (by omega) (by omega), ← BitVec.toNat_inj,
    BitVec.toNat_zero]
  omega

end

section
variable {d : Nat} [NeZero d] (hd : d ∣ 2 ^ 32)
include hd

theorem Buf.getElem?_read (b : Buf d) (k : Word) :
    b.data[(((b.cursor.toNat : Int) - 1 - k.toNat) % d).toNat]? = some (b.read k) := by
  rw [read_position hd, Buf.read_eq, Vector.getElem?_eq_getElem]

/-- The slot of a read is never past the last one, so no default is read. -/
theorem Buf.read_eq_getD (b : Buf d) (k : Word) :
    b.read k = b.data.getD (((b.cursor.toNat : Int) - 1 - k.toNat) % d).toNat 0#32 := by
  rw [Vector.getD, Array.getD_eq_getD_getElem?, Vector.getElem?_toArray, b.getElem?_read hd, Option.getD_some]

/-- Only the offset modulo the depth matters (42_buffer.md R77). -/
theorem Buf.read_congr (b : Buf d) {k j : Word} (h : k.toNat % d = j.toNat % d) : b.read k = b.read j := by
  have hmod : (k.toNat : Int) % d = j.toNat % d := by exact_mod_cast h
  rw [← Option.some_inj, ← b.getElem?_read hd, ← b.getElem?_read hd, (Int.emod_sub_cancel_left _).mpr hmod]

theorem Buf.read_add_depth (b : Buf d) (k : Word) : b.read (k + BitVec.ofNat 32 d) = b.read k := by
  refine b.read_congr hd ?_
  rw [BitVec.toNat_add, Nat.mod_mod_of_dvd _ hd, Nat.add_mod, BitVec.toNat_ofNat, Nat.mod_mod_of_dvd _ hd]
  simp

end

/-- Settles O17: both clauses hold at every depth that divides 2^32. -/
theorem bufferReadCountsBackFromTheCursor : Obligations.BufferReadCountsBackFromTheCursor :=
  ⟨fun b k => ⟨b.getElem?_read (by decide) k, b.read_add_depth (by decide) k⟩,
    fun b k => ⟨b.getElem?_read (by decide) k, b.read_add_depth (by decide) k⟩,
    fun b k => ⟨b.getElem?_read (by decide) k, b.read_add_depth (by decide) k⟩⟩

/-! ### Reads after writes (R84) -/

section
variable {d : Nat} [NeZero d] (hd : d ∣ 2 ^ 32)
include hd

/-- After a write, offset 0 is the word written, and every other offset reads what stood one nearer before. -/
theorem Buf.read_write (b : Buf d) (v : Word) {k : Word} (hk : k.toNat < d) :
    (b.write v).read k = if k = 0#32 then v else b.read (k - 1#32) := by
  have hafter : b.cursor + 1#32 + ~~~k = b.cursor - k := by rw [add_not_eq_sub]; ring
  have hbefore : b.cursor + ~~~(k - 1#32) = b.cursor - k := by rw [add_not_eq_sub]; ring
  simp only [Buf.read_eq, Buf.write_cursor, hafter, hbefore, Buf.write_slot, slot_eq_slot_sub_iff hd b.cursor hk]

/-- Writes to a buffer that reads 0 are read back newest first, and 0 before them (42_buffer.md R84 (a) to (c)). -/
theorem Buf.read_foldl_write {b : Buf d} (hzero : ∀ k, b.read k = 0#32) (vs : List Word) {k : Word}
    (hk : k.toNat < d) :
    (vs.foldl Buf.write b).read k = if k.toNat < vs.length then vs.getD (vs.length - 1 - k.toNat) 0#32 else 0#32 := by
  induction vs using List.reverseRecOn generalizing k with
  | nil => simp [hzero]
  | append_singleton vs v ih =>
    rw [List.foldl_concat, Buf.read_write hd _ _ hk, List.length_append, List.length_singleton]
    by_cases hk0 : k = 0#32
    · simp [hk0]
    · have hpos : 0 < k.toNat := by bv_omega
      have hpred : (k - 1#32).toNat = k.toNat - 1 := BitVec.toNat_sub_of_le (by bv_omega)
      rw [if_neg hk0, ih (by omega), hpred]
      by_cases hlt : k.toNat < vs.length + 1
      · rw [if_pos (by omega), if_pos hlt, List.getD_append _ _ _ _ (by omega)]
        congr 1
        omega
      · rw [if_neg (by omega), if_neg hlt]

end

/-- A buffer instance whose words are 0 reads 0 wherever its cursor stands (10_state.md R22). -/
theorem Buf.read_reset_cursor {d : Nat} [NeZero d] (cursor k : Word) :
    ({ Buf.reset d with cursor := cursor } : Buf d).read k = 0#32 := by
  simp [Buf.read_eq, Buf.reset]

end Machine
end Sys2Proof
end

section
/-!
SUPPORT. The commands that name an instance, and the buffer commands among them (30_encoding.md R51, 42_buffer.md R78 to
R84).
-/

namespace Sys2Proof
namespace Machine

open Safety

/-! ### Commands that name an instance -/

/-- The word of an instance number in a row of format I is decoded as that row's command (30_encoding.md R51, R60). -/
theorem decode_formatI {e : BitVec 8 × Form} (he : e ∈ opcodeMap) {mk : BitVec 8 → Instr} (hmk : e.2 = .i mk)
    (id : BitVec 8) : decode (BitVec.ofNat 32 (e.1.toNat + id.toNat * 2 ^ 8)) = .ok (mk id) := by
  have hword : BitVec.ofNat 32 (e.1.toNat + id.toNat * 2 ^ 8) = e.1.setWidth 32 ||| id.setWidth 32 <<< 8 := by
    rw [setWidth_or_shift_eq_ofNat, BitVec.toNat_setWidth_of_le (by decide)]
  have hclear : (e.1.setWidth 32 ||| id.setWidth 32 <<< 8) &&& Format.i.reservedMask = 0#32 := by
    rw [or_shift_and_mask _ _ _ (reservedMask_spares_opcode _), id_reserved]
  rw [hword, decode_of_row he (opcodeField_or_shift _ _), hmk]
  simp [Form.format, Form.command, hclear, idField_encoded]

section
variable {α : Type} {xs : List α} {id : BitVec 8} {c : Word} {s t : State} {effect : α → State}

theorem complete_instance_of_some {x : α} (h : xs[id.toNat]? = some x) :
    complete c s ((instanceAt xs id).map effect) = .next (effect x) := by
  rw [instanceAt_of_some h]
  rfl

theorem complete_instance_of_le (h : xs.length ≤ id.toNat) :
    complete c s ((instanceAt xs id).map effect) = .next (s.raise .badInstance c) := by
  rw [instanceAt_of_le h]
  rfl

/-- A command on an instance has its effect on an instance that exists, or takes BAD_INSTANCE. -/
theorem complete_instance_cases (h : complete c s ((instanceAt xs id).map effect) = .next t) :
    (∃ x, xs[id.toNat]? = some x ∧ t = effect x) ∨ t = s.raise .badInstance c := by
  rcases instanceAt_cases xs id with ⟨x, hx, -⟩ | ⟨hle, -⟩
  · rw [complete_instance_of_some hx] at h
    exact .inl ⟨x, hx, (Host.Outcome.next.inj h).symm⟩
  · rw [complete_instance_of_le hle] at h
    exact .inr (Host.Outcome.next.inj h).symm

end

/-- A command of format I on one list of instances: its word, its effect on an instance that exists, and BAD_INSTANCE
otherwise (30_encoding.md R51, 60_exceptions.md R131, R133). -/
theorem instance_command {e : BitVec 8 × Form} (he : e ∈ opcodeMap) {mk : BitVec 8 → Instr} (hmk : e.2 = .i mk)
    {α : Type} {instances : State → List α} {id : BitVec 8} {effect : State → α → State}
    (hexec : ∀ s, exec (mk id) s = complete (encode (mk id)) s ((instanceAt (instances s) id).map (effect s))) :
    decode (BitVec.ofNat 32 (e.1.toNat + id.toNat * 2 ^ 8)) = .ok (mk id) ∧ ∀ s,
      (∀ x, (instances s)[id.toNat]? = some x → exec (mk id) s = .next (effect s x)) ∧
      ((instances s).length ≤ id.toNat → s.faulted = false →
        exec (mk id) s = .next (faultEntry s 2 (BitVec.ofNat 32 (e.1.toNat + id.toNat * 2 ^ 8)))) := by
  refine ⟨decode_formatI he hmk id, fun s => ⟨fun x hx => ?_, fun hle hs => ?_⟩⟩
  · rw [hexec, complete_instance_of_some hx]
  · rw [hexec, complete_instance_of_le hle, raise_eq_faultEntry hs, encode_formatI he hmk]
    rfl

/-! ### The buffer commands -/

section
variable (id : BitVec 8) (s : State)

theorem exec_bwr8 : exec (.bwr8 id) s =
    complete (encode (.bwr8 id)) s ((instanceAt s.buf8 id).map fun b => s.setBuf8 id (b.write s.opa)) := rfl

theorem exec_bwr32 : exec (.bwr32 id) s =
    complete (encode (.bwr32 id)) s ((instanceAt s.buf32 id).map fun b => s.setBuf32 id (b.write s.opa)) := rfl

theorem exec_bwr256 : exec (.bwr256 id) s =
    complete (encode (.bwr256 id)) s ((instanceAt s.buf256 id).map fun b => s.setBuf256 id (b.write s.opa)) := rfl

theorem exec_brd8 : exec (.brd8 id) s =
    complete (encode (.brd8 id)) s ((instanceAt s.buf8 id).map fun b => s.setRes0 (b.read s.opa)) := rfl

theorem exec_brd32 : exec (.brd32 id) s =
    complete (encode (.brd32 id)) s ((instanceAt s.buf32 id).map fun b => s.setRes0 (b.read s.opa)) := rfl

theorem exec_brd256 : exec (.brd256 id) s =
    complete (encode (.brd256 id)) s ((instanceAt s.buf256 id).map fun b => s.setRes0 (b.read s.opa)) := rfl

end

/-- R84 (d) for depth 8. -/
theorem bwr8_frame {id : BitVec 8} {s t : State} (h : exec (.bwr8 id) s = .next t) :
    (∀ k, k ≠ id.toNat → t.buf8[k]? = s.buf8[k]?) ∧ t.buf32 = s.buf32 ∧ t.buf256 = s.buf256 := by
  rcases complete_instance_cases h with ⟨b, -, rfl⟩ | rfl
  · exact ⟨fun k hk => List.getElem?_set_ne hk.symm, rfl, rfl⟩
  · simp

/-- R84 (d) for depth 32. -/
theorem bwr32_frame {id : BitVec 8} {s t : State} (h : exec (.bwr32 id) s = .next t) :
    (∀ k, k ≠ id.toNat → t.buf32[k]? = s.buf32[k]?) ∧ t.buf8 = s.buf8 ∧ t.buf256 = s.buf256 := by
  rcases complete_instance_cases h with ⟨b, -, rfl⟩ | rfl
  · exact ⟨fun k hk => List.getElem?_set_ne hk.symm, rfl, rfl⟩
  · simp

/-- R84 (d) for depth 256. -/
theorem bwr256_frame {id : BitVec 8} {s t : State} (h : exec (.bwr256 id) s = .next t) :
    (∀ k, k ≠ id.toNat → t.buf256[k]? = s.buf256[k]?) ∧ t.buf8 = s.buf8 ∧ t.buf32 = s.buf32 := by
  rcases complete_instance_cases h with ⟨b, -, rfl⟩ | rfl
  · exact ⟨fun k hk => List.getElem?_set_ne hk.symm, rfl, rfl⟩
  · simp

/-- Settles O18: (d) from the two cases of a write command, (a) to (c) by induction on the writes from the last one. -/
theorem bufferReadsBackItsWrites : Obligations.BufferReadsBackItsWrites :=
  ⟨fun _ _ _ => ⟨bwr8_frame, bwr32_frame, bwr256_frame⟩,
    fun cursor vs _ => Buf.read_foldl_write (by decide) (Buf.read_reset_cursor cursor) vs,
    fun cursor vs _ => Buf.read_foldl_write (by decide) (Buf.read_reset_cursor cursor) vs,
    fun cursor vs _ => Buf.read_foldl_write (by decide) (Buf.read_reset_cursor cursor) vs⟩

/-- Settles O19: each write command is a command on one list of instances. -/
theorem bufferWriteCommands : Obligations.BufferWriteCommands :=
  ⟨fun id => instance_command (e := (0x20#8, .i .bwr8)) (lookup_opcodeMap_iff.mp rfl) rfl (exec_bwr8 id),
    fun id => instance_command (e := (0x22#8, .i .bwr32)) (lookup_opcodeMap_iff.mp rfl) rfl (exec_bwr32 id),
    fun id => instance_command (e := (0x24#8, .i .bwr256)) (lookup_opcodeMap_iff.mp rfl) rfl (exec_bwr256 id)⟩

/-- Settles O20: each read command is a command on one list of instances, with the slot of R77. -/
theorem bufferReadCommands : Obligations.BufferReadCommands := by
  refine ⟨fun id => ?_, fun id => ?_, fun id => ?_⟩
  · refine instance_command (e := (0x21#8, .i .brd8)) (lookup_opcodeMap_iff.mp rfl) rfl fun s => ?_
    simp only [exec_brd8, Buf.read_eq_getD (d := 8) (by decide)]
    rfl
  · refine instance_command (e := (0x23#8, .i .brd32)) (lookup_opcodeMap_iff.mp rfl) rfl fun s => ?_
    simp only [exec_brd32, Buf.read_eq_getD (d := 32) (by decide)]
    rfl
  · refine instance_command (e := (0x25#8, .i .brd256)) (lookup_opcodeMap_iff.mp rfl) rfl fun s => ?_
    simp only [exec_brd256, Buf.read_eq_getD (d := 256) (by decide)]
    rfl

end Machine
end Sys2Proof
end

section
/-!
SUPPORT. The lerp and its laws (43_interp.md R85, R86).
-/

namespace Sys2Proof
namespace Machine

open Safety

/-! ### The formula (R85) -/

theorem trunc32_add (x y : Int) : trunc32 (x + y) = trunc32 x + trunc32 y :=
  BitVec.ofInt_add x y

theorem lerpF_eq_lerpValue (a b f : Word) (w : Nat) : lerpF a b f w = lerpValue a b f w := by
  rw [lerpF, mul_eq_div]
  rfl

/-- Settles O21: `mul` is floor division of the product. -/
theorem lerpIsTheWrappedFormula : Obligations.LerpIsTheWrappedFormula :=
  fun a b f w _ => lerpF_eq_lerpValue a b f w

/-- The word added to `a` is narrowed, so narrowing the whole sum gives the same. -/
theorem lerpF_eq_trunc32 (a b f : Word) (w : Nat) :
    lerpF a b f w = trunc32 (a.toInt + (b - a).toInt * f.toInt / 2 ^ w) := by
  rw [trunc32_add, trunc32_of_toInt, ← mul_eq_div, lerpF]

/-! ### Fraction 0 and equal endpoints (R86 (a), (b)) -/

theorem lerpF_zero_fraction (a b : Word) (w : Nat) : lerpF a b 0#32 w = a := by
  rw [lerpF, mul_zero_word, BitVec.add_zero]

theorem lerpF_equal_endpoints (a f : Word) (w : Nat) : lerpF a a f w = a := by
  rw [lerpF, BitVec.sub_self, mul_swap_operands, mul_zero_word, BitVec.add_zero]

/-! ### The two formats (R86 (d)) -/

theorem toInt_double {f : Word} (hlo : -2 ^ 30 ≤ f.toInt) (hhi : f.toInt < 2 ^ 30) : (f + f).toInt = f.toInt * 2 := by
  rw [BitVec.toInt_add, Int.bmod_eq_of_le] <;> omega

/-- One fraction bit more and a fraction of twice the number are the same fraction. -/
theorem lerpF_double_fraction (a b : Word) {f : Word} (w : Nat) (hlo : -2 ^ 30 ≤ f.toInt) (hhi : f.toInt < 2 ^ 30) :
    lerpF a b (f + f) (w + 1) = lerpF a b f w := by
  rw [lerpF_eq_trunc32, lerpF_eq_trunc32, toInt_double hlo hhi, pow_succ, ← mul_assoc,
    Int.mul_ediv_mul_of_pos_left _ _ (by decide)]

/-! ### Floors and ceilings -/

/-- A floor is never above the exact value. -/
theorem add_floor_mul_le (a x : Int) (w : Nat) : (a + x / 2 ^ w) * 2 ^ w ≤ a * 2 ^ w + x := by
  have hfloor : x / 2 ^ w * 2 ^ w ≤ x := Int.ediv_mul_le _ (by positivity)
  rw [add_mul]
  omega

/-- A step of `(n − 1) / n` of the way falls short of the whole way by the ceiling of `d / n`. -/
theorem mul_pred_ediv (d : Int) {n : Int} (hn : 0 < n) : d * (n - 1) / n = d + -d / n := by
  have hsplit : d * (n - 1) = -d + d * n := by ring
  rw [hsplit, Int.add_mul_ediv_right _ _ hn.ne', add_comm]

/-- The ceiling of `d / n` lies between 0 and `d`. -/
theorem ceiling_between (d : Int) {n : Int} (hn : 0 < n) :
    (0 ≤ d → 0 ≤ -(-d / n) ∧ -(-d / n) ≤ d) ∧ (d ≤ 0 → d ≤ -(-d / n) ∧ -(-d / n) ≤ 0) := by
  constructor <;> intro hd
  · have hlo : -d ≤ -d / n := by rw [Int.le_ediv_iff_mul_le hn]; nlinarith
    have hhi : -d / n < 1 := by rw [Int.ediv_lt_iff_lt_mul hn]; omega
    omega
  · have hlo : 0 ≤ -d / n := Int.ediv_nonneg (by omega) hn.le
    have hhi : -d / n ≤ -d := Int.ediv_le_self _ (by omega)
    omega

theorem ceiling_natAbs_le_one_iff (d : Int) {n : Int} (hn : 0 < n) :
    (-(-d / n)).natAbs ≤ 1 ↔ (0 ≤ d ∧ d ≤ n) ∨ (-(n * 2) < d ∧ d < 0) := by
  have hle : -1 ≤ -d / n ↔ d ≤ n := by rw [Int.le_ediv_iff_mul_le hn]; omega
  have hlt : -d / n < 2 ↔ -(n * 2) < d := by rw [Int.ediv_lt_iff_lt_mul hn]; omega
  omega

/-! ### When the difference does not wrap (R86 (c), (e)) -/

theorem toInt_largestFraction {w : Nat} (hw : w ≤ 31) : (BitVec.ofNat 32 (2 ^ w - 1)).toInt = 2 ^ w - 1 := by
  have hpos : (1 : Int) ≤ 2 ^ w := one_le_pow₀ (by decide)
  have hpow : (2 : Int) ^ w ≤ 2 ^ 31 := pow_le_pow_right₀ (by decide) hw
  rw [BitVec.toInt_ofNat', maximum_cast, Int.bmod_eq_of_le] <;> omega

section
variable {a b f : Word} {w : Nat} (hlo : -2 ^ 31 ≤ b.toInt - a.toInt) (hhi : b.toInt - a.toInt < 2 ^ 31)
include hlo hhi

theorem toInt_difference : (b - a).toInt = b.toInt - a.toInt := by
  rw [BitVec.toInt_sub, Int.bmod_eq_of_le] <;> omega

theorem toInt_lerpF (hlo' : -2 ^ 31 ≤ a.toInt + (b.toInt - a.toInt) * f.toInt / 2 ^ w)
    (hhi' : a.toInt + (b.toInt - a.toInt) * f.toInt / 2 ^ w < 2 ^ 31) :
    (lerpF a b f w).toInt = a.toInt + (b.toInt - a.toInt) * f.toInt / 2 ^ w := by
  rw [lerpF_eq_trunc32, toInt_difference hlo hhi, trunc32_toInt hlo' hhi']

/-- The result lies between the endpoints, so it does not wrap (43_interp.md R86 (c)). -/
theorem endpoint_miss (hw : w ≤ 31) :
    b.toInt - (lerpF a b (BitVec.ofNat 32 (2 ^ w - 1)) w).toInt = -(-(b.toInt - a.toInt) / 2 ^ w) := by
  have hstep : (b.toInt - a.toInt) * (BitVec.ofNat 32 (2 ^ w - 1)).toInt / 2 ^ w =
      b.toInt - a.toInt + -(b.toInt - a.toInt) / 2 ^ w := by
    rw [toInt_largestFraction hw, mul_pred_ediv _ (by positivity)]
  obtain ⟨hrise, hfall⟩ := ceiling_between (b.toInt - a.toInt) (n := 2 ^ w) (by positivity)
  obtain ⟨ha, ha'⟩ := word_toInt_bounds a
  obtain ⟨hb, hb'⟩ := word_toInt_bounds b
  rw [toInt_lerpF hlo hhi] <;> omega

end

theorem lerp_format_le {w : Nat} (hw : w ∈ [16, 15]) : w ≤ 31 := by
  revert w; decide

/-- Settles O22: the laws of R86, one lemma each. -/
theorem lerpLaws : Obligations.LerpLaws := by
  refine ⟨fun a b f w _ => ⟨lerpF_zero_fraction a b w, lerpF_equal_endpoints a f w⟩, fun a b w hw hlo hhi => ?_,
    fun a b f => lerpF_double_fraction a b 15, fun a b f w _ hlo hhi hlo' hhi' => ?_⟩
  · have hmiss := endpoint_miss hlo hhi (lerp_format_le hw)
    refine ⟨hmiss, ?_⟩
    rw [hmiss, pow_succ]
    exact ceiling_natAbs_le_one_iff _ (by positivity)
  · have hval := toInt_lerpF hlo hhi hlo' hhi'
    refine ⟨hval, ?_⟩
    rw [hval]
    exact add_floor_mul_le _ _ _

end Machine
end Sys2Proof
end

section
/-!
SUPPORT. The pre-differenced word and the delta forms (43_interp.md R87, R88).
-/

namespace Sys2Proof
namespace Machine

open Safety

/-! ### The halves of the word (R87) -/

theorem toInt_eq_signed16 (x : BitVec 16) : x.toInt = signed16 x.toNat := by
  rw [BitVec.toInt_eq_toNat_cond, signed16]
  have := x.isLt
  split <;> split <;> omega

theorem pdBase_eq_baseValue (w : Word) : pdBase w = baseValue w := by
  rw [pdBase, toInt_eq_signed16, BitVec.extractLsb'_toNat, Nat.shiftRight_zero]
  rfl

theorem pdDelta_eq_deltaValue (w : Word) : pdDelta w = deltaValue w := by
  have := w.isLt
  rw [pdDelta, toInt_eq_signed16, BitVec.extractLsb'_toNat, Nat.shiftRight_eq_div_pow,
    Nat.mod_eq_of_lt (by omega)]
  rfl

theorem pdBase_bounds (w : Word) : -2 ^ 15 ≤ pdBase w ∧ pdBase w < 2 ^ 15 :=
  ⟨BitVec.le_toInt _, BitVec.toInt_lt⟩

theorem pdDelta_bounds (w : Word) : -2 ^ 15 ≤ pdDelta w ∧ pdDelta w < 2 ^ 15 :=
  ⟨BitVec.le_toInt _, BitVec.toInt_lt⟩

/-! ### The lerp of the word (R87) -/

theorem pd_eq_add_mul (w f : Word) : pd w f = trunc32 (pdBase w) + mul (trunc32 (pdDelta w)) f 16 := by
  rw [pd, trunc32_add, trunc32_of_toInt]

theorem toInt_trunc32_pdDelta (w : Word) : (trunc32 (pdDelta w)).toInt = pdDelta w := by
  obtain ⟨hlo, hhi⟩ := pdDelta_bounds w
  exact trunc32_toInt (by omega) (by omega)

theorem pd_eq_pdValue (w f : Word) : pd w f = pdValue w f := by
  rw [pd_eq_add_mul, mul_eq_div, ← trunc32_add, toInt_trunc32_pdDelta, pdBase_eq_baseValue, pdDelta_eq_deltaValue]
  rfl

/-- The lerp takes the difference of its endpoints, which is the delta again. -/
theorem pd_eq_lerpF (w f : Word) : pd w f = lerpF (trunc32 (pdBase w)) (trunc32 (pdBase w + pdDelta w)) f 16 := by
  have hdifference : trunc32 (pdBase w + pdDelta w) - trunc32 (pdBase w) = trunc32 (pdDelta w) := by
    rw [trunc32_add, add_sub_cancel_left]
  rw [lerpF, hdifference, pd_eq_add_mul]

/-- Two 16-bit values have a sum that fits a word. -/
theorem toInt_endpoint (w : Word) : (trunc32 (pdBase w + pdDelta w)).toInt = pdBase w + pdDelta w := by
  obtain ⟨hlo, hhi⟩ := pdBase_bounds w
  obtain ⟨hlo', hhi'⟩ := pdDelta_bounds w
  exact trunc32_toInt (by omega) (by omega)

/-! ### The delta forms (R88) -/

/-- The sign form is the sign bit. -/
theorem sgn_eq_shiftRight (d : Word) : sgn d = d >>> 31 := by
  have hlt := d.isLt
  apply BitVec.eq_of_toNat_eq
  rw [BitVec.toNat_ushiftRight, Nat.shiftRight_eq_div_pow, sgn]
  simp only [BitVec.toInt_neg_iff]
  split
  case isTrue hneg =>
    have hbit : d.toNat / 2 ^ 31 = 1 := by omega
    rw [hbit]
    rfl
  case isFalse hpos =>
    have hbit : d.toNat / 2 ^ 31 = 0 := by omega
    rw [hbit]
    rfl

/-- Settles O23: the sign form is the sign bit, and each clause on the word is a lemma of R87 in the values of its
halves. -/
theorem preDifferencedLerpIsALerp : Obligations.PreDifferencedLerpIsALerp := by
  refine ⟨fun d => ⟨rfl, rfl, sgn_eq_shiftRight d⟩, fun w f => ?_⟩
  rw [← pdBase_eq_baseValue, ← pdDelta_eq_deltaValue]
  exact ⟨rfl, rfl, pd_eq_pdValue w f, pd_eq_lerpF w f, toInt_endpoint w⟩

end Machine
end Sys2Proof
end

section
/-!
SUPPORT. The interpolation commands: the word of each, and its effect on the state (43_interp.md R89 to R96).
-/

namespace Sys2Proof
namespace Machine

open Safety

/-! ### The linear and bilinear commands -/

theorem exec_lerp16 (s : State) : exec .lerp16 s = .next (s.setRes0 (lerpF s.opa s.opb s.opc 16)) := rfl

theorem exec_lerp15 (s : State) : exec .lerp15 s = .next (s.setRes0 (lerpF s.opa s.opb s.opc 15)) := rfl

theorem exec_bilerp16 (s : State) :
    exec .bilerp16 s = .next (s.setRes0 (bilerp s.opa s.opb s.opc s.opd s.ope s.opf 16)) := rfl

theorem exec_bilerp15 (s : State) :
    exec .bilerp15 s = .next (s.setRes0 (bilerp s.opa s.opb s.opc s.opd s.ope s.opf 15)) := rfl

theorem bilerp_eq_lerpValue (a b c d frac0 frac1 : Word) (w : Nat) :
    bilerp a b c d frac0 frac1 w = lerpValue (lerpValue a b frac0 w) (lerpValue c d frac0 w) frac1 w := by
  simp only [bilerp, lerpF_eq_lerpValue]

/-- Settles O24: each command writes RES0 alone, by floor division at every stage. -/
theorem linearInterpolationCommands : Obligations.LinearInterpolationCommands := by
  refine ⟨⟨rfl, fun s => ?_⟩, ⟨rfl, fun s => ?_⟩, ⟨rfl, fun s => ?_⟩, rfl, fun s => ?_⟩
  · rw [exec_lerp16, lerpF_eq_lerpValue]; rfl
  · rw [exec_lerp15, lerpF_eq_lerpValue]; rfl
  · rw [exec_bilerp16, bilerp_eq_lerpValue]; rfl
  · rw [exec_bilerp15, bilerp_eq_lerpValue]; rfl

/-! ### The pre-differenced commands -/

theorem exec_pdlerpRaw (s : State) : exec .pdlerpRaw s = .next (pdlerp .raw s) := rfl

theorem exec_pdlerpSgn (s : State) : exec .pdlerpSgn s = .next (pdlerp .sgn s) := rfl

theorem exec_pdbilerpRaw (s : State) : exec .pdbilerpRaw s = .next (pdbilerp .raw s) := rfl

theorem exec_pdbilerpSgn (s : State) : exec .pdbilerpSgn s = .next (pdbilerp .sgn s) := rfl

theorem pdlerp_eq (form : DeltaForm) (s : State) :
    pdlerp form s = s.setResults (pdValue s.opa s.opb) (deltaOut form (trunc32 (deltaValue s.opa))) := by
  rw [pdlerp, pd_eq_pdValue, pdDelta_eq_deltaValue]

theorem pdbilerp_eq (form : DeltaForm) (s : State) :
    pdbilerp form s = s.setResults (lerpValue (pdValue s.opa s.opc) (pdValue s.opb s.opc) s.opd 16)
      (deltaOut form (pdValue s.opb s.opc - pdValue s.opa s.opc)) := by
  simp only [pdbilerp, pd_eq_pdValue, lerpF_eq_lerpValue]

/-- The sign of the delta is the top bit of the word that packs it (43_interp.md R94). -/
theorem sgn_delta_eq_shiftRight (w : Word) : sgn (trunc32 (deltaValue w)) = w >>> 31 := by
  have hsign : deltaValue w < 0 ↔ w.toInt < 0 := by
    have hlt := w.isLt
    rw [deltaValue, signed16, BitVec.toInt_neg_iff]
    split <;> omega
  have hfits : (trunc32 (deltaValue w)).toInt = deltaValue w := by
    rw [← pdDelta_eq_deltaValue, toInt_trunc32_pdDelta]
  rw [← sgn_eq_shiftRight]
  simp only [sgn, hfits, hsign]

/-- Settles O25: each command is the pre-differenced lerp or bilerp of one delta form. -/
theorem preDifferencedCommands : Obligations.PreDifferencedCommands := by
  refine ⟨⟨rfl, fun s => ?_⟩, ⟨rfl, fun s => ?_⟩, ⟨rfl, fun s => ?_⟩, rfl, fun s => ?_⟩
  · rw [exec_pdlerpRaw, pdlerp_eq]; rfl
  · rw [exec_pdlerpSgn, pdlerp_eq, deltaOut, sgn_delta_eq_shiftRight]; rfl
  · rw [exec_pdbilerpRaw, pdbilerp_eq]; rfl
  · rw [exec_pdbilerpSgn, pdbilerp_eq]; rfl

end Machine
end Sys2Proof
end

section
/-!
SUPPORT. The samples of a spline evaluation and its blend factor (44_spline.md R98, R99, R101, R104, R106).
-/

namespace Sys2Proof
namespace Machine

open Safety

/-! ### The fields of the phase and the morph (R98, R99) -/

theorem leftIndex_eq_div (phase : Word) : leftIndex phase = phase.toNat / 65536 := by
  have := phase.isLt
  rw [leftIndex, BitVec.extractLsb'_toNat, Nat.shiftRight_eq_div_pow, Nat.mod_eq_of_lt (by omega)]

theorem leftTable_eq_div (morph : Word) : leftTable morph = morph.toNat / 65536 :=
  leftIndex_eq_div morph

/-- The morph fraction is 16 bits wide, so as a word it is not negative. -/
theorem toInt_morphFraction (morph : Word) : (morphFraction morph).toInt = ((morph.toNat % 65536 : Nat) : Int) := by
  have hval : (morphFraction morph).toNat = morph.toNat % 65536 := by
    rw [morphFraction, BitVec.toNat_setWidth, BitVec.extractLsb'_toNat, Nat.shiftRight_zero]
    omega
  rw [BitVec.toInt_eq_toNat_of_lt (by omega), hval]

/-! ### The morphed samples (R101) -/

/-- Each sample the machine morphs is the sample of the evaluation's window at that position. -/
theorem morphedSample_eq_windowSample (p : Config.Params) (fam : BitVec 4) (phase morph : Word) (k : Nat) :
    morphedSample p fam (leftTable morph) (leftIndex phase + k) (morphFraction morph) =
      windowSample p fam phase morph k := by
  rw [morphedSample, pd_eq_pdValue, pdValue, toInt_morphFraction, leftTable_eq_div, leftIndex_eq_div]
  rfl

theorem splineWindow_eq_windowSamples (p : Config.Params) (fam : BitVec 4) (phase morph : Word) :
    splineWindow p fam phase morph = windowSamples p fam phase morph := by
  have hfirst := morphedSample_eq_windowSample p fam phase morph 0
  rw [Nat.add_zero] at hfirst
  simp only [splineWindow, morphedWindow, windowSamples, morphedSample_eq_windowSample, hfirst]

/-! ### Saturation and the blend (R104, R106) -/

theorem satS_toInt_eq_clampSigned (x : Word) {bits : Nat} (hbits : bits ≤ 32) :
    (satS x bits).toInt = clampSigned x.toInt bits := by
  have hpos : (1 : Int) ≤ 2 ^ (bits - 1) := one_le_pow₀ (by decide)
  rw [satS_toInt x hbits, clampSigned]
  omega

/-- A clamped value lies in the range, so clamping it again changes nothing. -/
theorem satS_satS (x : Word) {bits : Nat} (hbits : bits ≤ 32) : satS (satS x bits) bits = satS x bits := by
  apply BitVec.eq_of_toInt_eq
  rw [satS_toInt _ hbits, satS_toInt x hbits]
  omega

/-- Fraction 1.0 gives the second endpoint, whatever the difference wraps to. -/
theorem lerpF_one_fraction (a b : Word) {w : Nat} (hw : w ≤ 30) : lerpF a b (BitVec.ofNat 32 (2 ^ w)) w = b := by
  rw [lerpF, mul_one_of_format _ hw, add_comm, sub_add_cancel]

section
variable (p : Config.Params) (m : Config.Samples) (t : BitVec 16)

theorem splineSample_none : splineSample p m t none = satS (quintic p m t) 15 := rfl

theorem splineSample_some (io : Word) :
    splineSample p m t (some io) = satS (lerpF (splineSample p m t none) m.m2 io 16) 15 := rfl

theorem splineSample_zero_blend : splineSample p m t (some 0#32) = splineSample p m t none := by
  rw [splineSample_some, lerpF_zero_fraction, splineSample_none, satS_satS _ (by decide)]

theorem splineSample_one_blend : splineSample p m t (some 0x00010000#32) = satS m.m2 15 := by
  have hlerp : lerpF (splineSample p m t none) m.m2 0x00010000#32 16 = m.m2 :=
    lerpF_one_fraction _ _ (w := 16) (by decide)
  rw [splineSample_some, hlerp]

end

/-- Settles O30: at either end of the blend factor the lerp is one of its endpoints, and the quintic result is already
clamped. -/
theorem blendFactorEndpoints : Obligations.BlendFactorEndpoints := by
  refine ⟨fun p fam phase morph => ?_, fun p m t => ⟨splineSample_zero_blend p m t, ?_, splineSample_some p m t⟩⟩
  · rw [splineWindow_eq_windowSamples]
    rfl
  · rw [splineSample_one_blend, satS_toInt_eq_clampSigned _ (by decide)]

end Machine
end Sys2Proof
end

section
/-!
SUPPORT. The state-setting and read-back commands of the oscillator (30_encoding.md R54, 45_osc.md R113 to R117).
-/

namespace Sys2Proof
namespace Machine

open Safety

/-! ### The setting commands (R113 to R116) -/

section
variable (id : BitVec 8) (s : State)

theorem exec_osetf : exec (.osetf id) s =
    complete (encode (.osetf id)) s ((instanceAt s.osc id).map fun o => s.setOsc id { o with frequency := s.opa }) :=
  rfl

theorem exec_osetm : exec (.osetm id) s =
    complete (encode (.osetm id)) s ((instanceAt s.osc id).map fun o => s.setOsc id { o with morph := s.opa }) := rfl

theorem exec_opm : exec (.opm id) s =
    complete (encode (.opm id)) s ((instanceAt s.osc id).map fun o => s.setOsc id (o.modulate s.opa)) := rfl

theorem exec_orst : exec (.orst id) s =
    complete (encode (.orst id)) s ((instanceAt s.osc id).map fun o => s.setOsc id { o with phase := 0#32 }) := rfl

end

/-- R115: the nudge is the signed difference of the new input and the last one, modulo 2^32. -/
theorem Osc.modulate_eq_ofInt (o : Osc) (pmInput : Word) :
    o.modulate pmInput = { o with
      phaseModulation := BitVec.ofInt 32 (pmInput.toInt - o.lastPhaseModulation.toInt)
      lastPhaseModulation := pmInput } := by
  have hdiff : pmInput - o.lastPhaseModulation = BitVec.ofInt 32 (pmInput.toInt - o.lastPhaseModulation.toInt) :=
    BitVec.eq_of_toInt_eq (by rw [BitVec.toInt_sub, BitVec.toInt_ofInt])
  rw [Osc.modulate, hdiff]

/-- Settles O32: each setting command is a command on the list of oscillators. -/
theorem oscillatorSettingCommands : Obligations.OscillatorSettingCommands := by
  intro id
  obtain ⟨hdecF, hF⟩ :=
    instance_command (e := (0x50#8, .i .osetf)) (lookup_opcodeMap_iff.mp rfl) rfl (exec_osetf id)
  obtain ⟨hdecM, hM⟩ :=
    instance_command (e := (0x51#8, .i .osetm)) (lookup_opcodeMap_iff.mp rfl) rfl (exec_osetm id)
  obtain ⟨hdecP, hP⟩ :=
    instance_command (e := (0x52#8, .i .opm)) (lookup_opcodeMap_iff.mp rfl) rfl (exec_opm id)
  obtain ⟨hdecR, hR⟩ :=
    instance_command (e := (0x56#8, .i .orst)) (lookup_opcodeMap_iff.mp rfl) rfl (exec_orst id)
  refine ⟨hdecF, hdecM, hdecP, hdecR, fun s hle hs => ?_, fun s o ho => ?_⟩
  · exact ⟨(hF s).2 hle hs, (hM s).2 hle hs, (hP s).2 hle hs, (hR s).2 hle hs⟩
  · refine ⟨(hF s).1 o ho, (hM s).1 o ho, ?_, (hR s).1 o ho⟩
    rw [(hP s).1 o ho, Osc.modulate_eq_ofInt]
    rfl

/-! ### The read-back command (R117) -/

theorem exec_ord (id : BitVec 8) (sel : OscField) (s : State) : exec (.ord id sel) s =
    complete (encode (.ord id sel)) s ((instanceAt s.osc id).map fun o => s.setRes0 (o.field sel)) := rfl

/-- The word of an instance number and a selector in a row of format R is decoded as that row's command
(30_encoding.md R54, R60). -/
theorem decode_formatR {e : BitVec 8 × Form} (he : e ∈ opcodeMap) {mk : BitVec 8 → OscField → Instr}
    (hmk : e.2 = .r mk) (id : BitVec 8) (sel : OscField) :
    decode (BitVec.ofNat 32 (e.1.toNat + id.toNat * 2 ^ 8 + sel.number.toNat * 2 ^ 16)) = .ok (mk id sel) := by
  have hrow : (Form.r mk).AgreesWith e.1 := hmk ▸ opcodeMap_agrees e he
  obtain ⟨hop, hfields⟩ := hrow id sel
  have hword : encode (mk id sel) = e.1.setWidth 32 ||| (id.setWidth 32 <<< 8 ||| sel.number <<< 16) := by
    rw [encode, hop, hfields]
  have hclear : (e.1.setWidth 32 ||| (id.setWidth 32 <<< 8 ||| sel.number <<< 16)) &&& Format.r.reservedMask =
      0#32 := by
    rw [readFields_eq_byte, or_shift_and_mask _ _ _ (reservedMask_spares_opcode _), ← readFields_eq_byte,
      read_reserved]
  have hopcode : opcodeField (e.1.setWidth 32 ||| (id.setWidth 32 <<< 8 ||| sel.number <<< 16)) = e.1 := by
    rw [readFields_eq_byte, opcodeField_or_shift]
  rw [← encode_formatR he hmk, hword, decode_of_row he hopcode, hmk]
  simp [Form.format, Form.command, hclear, selectorField_encoded, idField_encoded_above]

/-- R54: a selector's number is its place in the list of the fields. -/
theorem OscField.idxOf_eq_number (sel : OscField) :
    [OscField.frequency, .phase, .phaseModulation, .lastPhaseModulation, .morph].idxOf sel = sel.number.toNat := by
  cases sel <;> rfl

/-- R117: the field a selector names stands at its number in the list of the oscillator's words. -/
theorem Osc.field_eq_getD (o : Osc) (sel : OscField) :
    o.field sel =
      [o.frequency, o.phase, o.phaseModulation, o.lastPhaseModulation, o.morph].getD sel.number.toNat 0#32 := by
  cases sel <;> rfl

/-- Settles O33: ORD is a command on the list of oscillators, with the selector's number as a field of its word. -/
theorem oscillatorReadCommand : Obligations.OscillatorReadCommand := by
  intro id sel
  have hrow : (0x57#8, Form.r .ord) ∈ opcodeMap := lookup_opcodeMap_iff.mp rfl
  simp only [OscField.idxOf_eq_number]
  refine ⟨decode_formatR hrow rfl id sel, fun s hle hs => ?_, fun s o ho => ?_⟩
  · rw [exec_ord, complete_instance_of_le hle, raise_eq_faultEntry hs, encode_formatR hrow rfl]
    rfl
  · rw [exec_ord, complete_instance_of_some ho, Osc.field_eq_getD]
    rfl

end Machine
end Sys2Proof
end

section
/-!
SUPPORT. The fold and wrap operators as natural numbers, their commands and their laws (46_fold.md R124 to R127).
-/

namespace Sys2Proof
namespace Machine

/-! ### The fold at a width -/

/-- The fold at width `n` on bits: bit `n` selects the mirrored low `n` bits (46_fold.md R124, R125). -/
def foldBits (n : Nat) (x : Word) : Word :=
  if x.getLsbD n then (BitVec.allOnes n - x.extractLsb' 0 n).setWidth 32 else (x.extractLsb' 0 n).setWidth 32

theorem fold16_eq_foldBits (x : Word) : fold16 x = foldBits 16 x := rfl

theorem fold25_eq_foldBits (x : Word) : fold25 x = foldBits 25 x := rfl

/-- The fold at width `n` on natural numbers. -/
def foldValue (n a : Nat) : Nat :=
  if a / 2 ^ n % 2 = 1 then 2 ^ n - 1 - a % 2 ^ n else a % 2 ^ n

theorem foldValue_lt (n a : Nat) : foldValue n a < 2 ^ n := by
  have hpos : 0 < 2 ^ n := by positivity
  have hmod : a % 2 ^ n < 2 ^ n := Nat.mod_lt a hpos
  unfold foldValue
  split <;> omega

/-- The fold at width `n` looks at bits `n` to 0 alone. -/
theorem foldValue_congr {n a b : Nat} (h : a ≡ b [MOD 2 ^ (n + 1)]) : foldValue n a = foldValue n b := by
  have hlow : a % 2 ^ n = b % 2 ^ n := h.of_dvd (pow_dvd_pow 2 n.le_succ)
  have hbit : a / 2 ^ n % 2 = b / 2 ^ n % 2 := by
    rw [← Nat.mod_mul_right_div_self, ← Nat.mod_mul_right_div_self, ← pow_succ, h]
  rw [foldValue, hlow, hbit, foldValue]

theorem extractLow_toNat {n : Nat} (hn : n ≤ 32) (x : Word) :
    ((x.extractLsb' 0 n).setWidth 32).toNat = x.toNat % 2 ^ n := by
  rw [BitVec.toNat_setWidth_of_le hn, BitVec.extractLsb'_toNat, Nat.shiftRight_zero]

theorem mirrorLow_toNat {n : Nat} (hn : n ≤ 32) (x : Word) :
    ((BitVec.allOnes n - x.extractLsb' 0 n).setWidth 32).toNat = 2 ^ n - 1 - x.toNat % 2 ^ n := by
  rw [BitVec.toNat_setWidth_of_le hn, BitVec.allOnes_sub_eq_not, BitVec.toNat_not, BitVec.extractLsb'_toNat,
    Nat.shiftRight_zero]

theorem foldBits_toNat {n : Nat} (hn : n ≤ 32) (x : Word) : (foldBits n x).toNat = foldValue n x.toNat := by
  have hbit : x.getLsbD n = decide (x.toNat / 2 ^ n % 2 = 1) := Nat.testBit_eq_decide_div_mod_eq
  rw [foldBits, foldValue, hbit]
  simp only [decide_eq_true_eq]
  split
  case isTrue => exact mirrorLow_toNat hn x
  case isFalse => exact extractLow_toNat hn x

theorem foldBits_eq_ofNat {n : Nat} (hn : n ≤ 32) (x : Word) :
    foldBits n x = BitVec.ofNat 32 (foldValue n x.toNat) :=
  BitVec.eq_of_toNat_eq <| by
    rw [← foldBits_toNat hn, BitVec.ofNat_toNat, BitVec.setWidth_eq]

theorem foldBits_toNat_lt {n : Nat} (hn : n ≤ 32) (x : Word) : (foldBits n x).toNat < 2 ^ n :=
  foldBits_toNat hn x ▸ foldValue_lt n x.toNat

/-- Adding `2 ^ (n + 1)` changes none of bits `n` to 0 (46_fold.md R127 (b), (c)). -/
theorem toNat_add_twoPow_modEq {n : Nat} (hn : n ≤ 32) (x : Word) :
    (x + BitVec.ofNat 32 (2 ^ n)).toNat ≡ x.toNat [MOD 2 ^ n] := by
  have hdvd : 2 ^ n ∣ 2 ^ 32 := pow_dvd_pow 2 hn
  rw [BitVec.toNat_add, BitVec.toNat_ofNat, Nat.add_mod_mod, Nat.ModEq, Nat.mod_mod_of_dvd _ hdvd, Nat.add_mod_right]

theorem foldBits_add_period {n : Nat} (hn : n < 32) (x : Word) :
    foldBits n x = foldBits n (x + BitVec.ofNat 32 (2 ^ (n + 1))) := by
  rw [foldBits_eq_ofNat hn.le, foldBits_eq_ofNat hn.le, foldValue_congr (toNat_add_twoPow_modEq hn x)]

/-! ### The wrap -/

theorem wrap16_toNat (x : Word) : (wrap16 x).toNat = x.toNat % 65536 :=
  extractLow_toNat (by decide) x

theorem wrap16_eq_ofNat (x : Word) : wrap16 x = BitVec.ofNat 32 (x.toNat % 65536) := by
  rw [← wrap16_toNat, BitVec.ofNat_toNat, BitVec.setWidth_eq]

theorem wrap16_wrap16 (x : Word) : wrap16 (wrap16 x) = wrap16 x := by
  rw [wrap16_eq_ofNat (wrap16 x), wrap16_toNat, Nat.mod_mod, ← wrap16_eq_ofNat]

/-- The unsigned and the signed reading of a word agree modulo 2^16 (46_fold.md R126). -/
theorem toNat_mod_eq_toInt_mod (x : Word) : ((x.toNat % 65536 : Nat) : Int) = x.toInt % 65536 := by
  rw [BitVec.toInt_eq_toNat_cond]
  split <;> omega

/-! ### The commands and the laws -/

theorem exec_fold16 (s : State) : exec .fold16 s = .next (s.setRes0 (fold16 s.opa)) := rfl

theorem exec_fold25 (s : State) : exec .fold25 s = .next (s.setRes0 (fold25 s.opa)) := rfl

theorem exec_wrap16 (s : State) : exec .wrap16 s = .next (s.setRes0 (wrap16 s.opa)) := rfl

/-- Settles O39: each command writes RES0 alone, with its operator's value in natural numbers. -/
theorem foldAndWrapCommands : Obligations.FoldAndWrapCommands := by
  refine ⟨⟨rfl, fun s => ?_⟩, ⟨rfl, fun s => ?_⟩, rfl, fun s => ⟨?_, toNat_mod_eq_toInt_mod s.opa⟩⟩
  · rw [exec_fold16, fold16_eq_foldBits, foldBits_eq_ofNat (by decide)]; rfl
  · rw [exec_fold25, fold25_eq_foldBits, foldBits_eq_ofNat (by decide)]; rfl
  · rw [exec_wrap16, wrap16_eq_ofNat]; rfl

/-- Settles O40: the range and the period are those of the fold at every width; the boundary values are computed. -/
theorem foldAndWrapLaws : Obligations.FoldAndWrapLaws :=
  ⟨wrap16_wrap16,
    fun x => ⟨foldBits_toNat_lt (n := 16) (by decide) x, foldBits_add_period (n := 16) (by decide) x⟩,
    fun x => ⟨foldBits_toNat_lt (n := 25) (by decide) x, foldBits_add_period (n := 25) (by decide) x⟩,
    by decide⟩

end Machine
end Sys2Proof
end

section
/-!
SUPPORT. The command that changes nothing, and the words with its opcode (47_system.md R129, 30_encoding.md R59).
-/

namespace Sys2Proof
namespace Machine

/-! ### Words with an opcode of format N -/

/-- Format N has no field: its opcode and reserved bits together are the whole word (30_encoding.md R49). -/
theorem opcode_and_clear_formatN_iff (c : Word) (op : BitVec 8) :
    opcodeField c = op ∧ c &&& Format.n.reservedMask = 0#32 ↔ c = op.setWidth 32 := by
  have hmask : 0xFF#32 ||| Format.n.reservedMask = BitVec.allOnes 32 := by decide
  rw [← and_mask_eq_opcode_iff, hmask, BitVec.and_allOnes]

section
variable {e : BitVec 8 × Form} (he : e ∈ opcodeMap) {cmd : Instr} (hcmd : e.2 = .n cmd)
include he hcmd

/-- The bare opcode of a format N row is its command. -/
theorem decode_formatN : decode (e.1.setWidth 32) = .ok cmd := by
  obtain ⟨hop, hclear⟩ := (opcode_and_clear_formatN_iff _ e.1).mpr rfl
  rw [decode_of_row he hop, hcmd]
  exact if_neg (not_not_intro hclear)

/-- Every other word with that opcode has a reserved bit set. -/
theorem decode_formatN_eq_reservedBit {c : Word} (hop : opcodeField c = e.1) (hne : c ≠ e.1.setWidth 32) :
    decode c = .error .reservedBit := by
  have hset : c &&& Format.n.reservedMask ≠ 0#32 := fun hclear =>
    hne ((opcode_and_clear_formatN_iff c e.1).mp ⟨hop, hclear⟩)
  rw [decode_of_row he hop, hcmd]
  exact if_pos hset

end

/-! ### NOP -/

theorem nop_mem_opcodeMap : (0x00#8, Form.n .nop) ∈ opcodeMap := List.mem_cons_self

theorem exec_nop (s : State) : exec .nop s = .next s := rfl

/-- Issuing the word of NOP leaves every state as it was: a halted block ignores it, any other executes it. -/
theorem issue_of_decode_nop {c : Word} (h : decode c = .ok .nop) (s : State) : issue c s = .next s := by
  rw [issue, h]
  split
  case isTrue => rfl
  case isFalse => exact exec_nop s

/-- Settles O41: NOP's row is of format N, so the zero word is its only word. -/
theorem nopChangesNothing : Obligations.NopChangesNothing := by
  have hdecode : decode 0x00000000#32 = .ok .nop := decode_formatN nop_mem_opcodeMap rfl
  refine ⟨hdecode, exec_nop, fun c hop hne => ?_, issue_of_decode_nop hdecode⟩
  have hfield : opcodeField c = 0x00#8 := (opcodeField_eq_iff c 0x00#8).mpr hop.symm
  exact decode_formatN_eq_reservedBit nop_mem_opcodeMap rfl hfield hne

end Machine
end Sys2Proof
end

section
/-!
SUPPORT. The encoder gives back the word a command was decoded from: with its reserved bits clear, a word is its opcode
joined with its fields (30_encoding.md R48 to R54, R58).
-/

namespace Sys2Proof

/-! ### A word from its fields -/

/-- A legal word is made from a row of the map: its opcode is the row's, its reserved bits are 0 and its fields make the
command (30_encoding.md R58). -/
theorem row_of_decode {c : Word} {i : Instr} (h : decode c = .ok i) :
    ∃ e ∈ opcodeMap, opcodeField c = e.1 ∧ c &&& e.2.format.reservedMask = 0#32 ∧ e.2.command c = .ok i := by
  by_cases hrow : ∃ e ∈ opcodeMap, opcodeField c = e.1
  · obtain ⟨e, he, hop⟩ := hrow
    rw [decode_of_row he hop] at h
    split at h
    case isTrue => cases h
    case isFalse hclear => exact ⟨e, he, hop, not_not.mp hclear, h⟩
  · rw [decode_of_no_row fun e he hop => hrow ⟨e, he, hop⟩] at h
    cases h

/-- Formats S, I and F: with every bit above the field clear, the word is its opcode and the field. -/
theorem opcode_or_field_of_clear {c mask : Word} {w : Nat} (hmask : ∀ k < 32, mask.getLsbD k = decide (8 + w ≤ k))
    (hclear : c &&& mask = 0#32) :
    (opcodeField c).setWidth 32 ||| (c.extractLsb' 8 w).setWidth 32 <<< 8 = c := by
  apply BitVec.eq_of_getLsbD_eq
  intro k hk
  have hbit := congrArg (BitVec.getLsbD · k) hclear
  simp only [BitVec.getLsbD_and, hmask k hk, BitVec.getLsbD_zero] at hbit
  simp only [opcodeField, BitVec.getLsbD_or, BitVec.getLsbD_setWidth, BitVec.getLsbD_shiftLeft,
    BitVec.getLsbD_extractLsb']
  grind

/-- The number of the source is bit 16 of the word (30_encoding.md R53). -/
theorem sourceField_number_getLsbD (c : Word) (k : Nat) :
    (sourceField c).number.getLsbD k = (decide (k = 0) && c.getLsbD 16) := by
  cases hbit : c.getLsbD 16 <;> simp [sourceField, -BitVec.getLsbD_eq_getElem, hbit, Source.number, BitVec.getLsbD_one]

/-- Format O: with bits 19:17 and 31:24 clear, the word is its opcode and its three fields. -/
theorem opcode_or_stepFields_of_clear {c : Word} (hclear : c &&& Format.o.reservedMask = 0#32) :
    (opcodeField c).setWidth 32 ||| stepFields (idField c) (sourceField c) (stepFamilyField c) = c := by
  have hmask : ∀ k < 32, Format.o.reservedMask.getLsbD k = decide ((17 ≤ k ∧ k < 20) ∨ 24 ≤ k) := by decide
  apply BitVec.eq_of_getLsbD_eq
  intro k hk
  have hbit := congrArg (BitVec.getLsbD · k) hclear
  simp only [BitVec.getLsbD_and, hmask k hk, BitVec.getLsbD_zero] at hbit
  simp only [opcodeField, stepFields, sourceField_number_getLsbD, idField, stepFamilyField, BitVec.getLsbD_or,
    BitVec.getLsbD_setWidth, BitVec.getLsbD_shiftLeft, BitVec.getLsbD_extractLsb']
  grind

theorem number_of_ofSelector {bits : BitVec 3} {sel : OscField} (h : OscField.ofSelector bits = some sel) :
    sel.number = bits.setWidth 32 := by
  revert bits sel; decide

/-- Format R: with bits 31:19 clear, the word is its opcode, its instance number and its selector. -/
theorem opcode_or_readFields_of_clear {c : Word} (hclear : c &&& Format.r.reservedMask = 0#32) :
    (opcodeField c).setWidth 32 ||| ((idField c).setWidth 32 <<< 8 ||| (selectorField c).setWidth 32 <<< 16) = c := by
  have hmask : ∀ k < 32, Format.r.reservedMask.getLsbD k = decide (19 ≤ k) := by decide
  apply BitVec.eq_of_getLsbD_eq
  intro k hk
  have hbit := congrArg (BitVec.getLsbD · k) hclear
  simp only [BitVec.getLsbD_and, hmask k hk, BitVec.getLsbD_zero] at hbit
  simp only [opcodeField, idField, selectorField, BitVec.getLsbD_or, BitVec.getLsbD_setWidth,
    BitVec.getLsbD_shiftLeft, BitVec.getLsbD_extractLsb']
  grind

/-! ### The encoder after the decoder -/

/-- Formats S, I and F: a command that carries a word's opcode and its field is encoded as that word. -/
theorem encode_of_field {c mask : Word} {w : Nat} {i : Instr}
    (hi : i.opcode = opcodeField c ∧ i.fields = (c.extractLsb' 8 w).setWidth 32 <<< 8)
    (hmask : ∀ k < 32, mask.getLsbD k = decide (8 + w ≤ k)) (hclear : c &&& mask = 0#32) : encode i = c := by
  obtain ⟨hop, hfields⟩ := hi
  rw [encode, hop, hfields, opcode_or_field_of_clear hmask hclear]

/-- A command made from the fields of a word with its reserved bits clear is encoded as that word, format by format. -/
theorem encode_of_command {form : Form} {c : Word} {i : Instr} (hform : form.AgreesWith (opcodeField c))
    (hclear : c &&& form.format.reservedMask = 0#32) (h : form.command c = .ok i) : encode i = c := by
  cases form with
  | n cmd =>
    cases h
    obtain ⟨hop, hfields⟩ := hform
    have hword : c = (opcodeField c).setWidth 32 := (Machine.opcode_and_clear_formatN_iff c _).mp ⟨rfl, hclear⟩
    rw [encode, hop, hfields, BitVec.or_zero, ← hword]
  | s mk => cases h; exact encode_of_field (mask := Format.s.reservedMask) (hform _) (by decide) hclear
  | i mk => cases h; exact encode_of_field (mask := Format.i.reservedMask) (hform _) (by decide) hclear
  | f mk => cases h; exact encode_of_field (mask := Format.f.reservedMask) (hform _) (by decide) hclear
  | o mk =>
    simp only [Form.command] at h
    split at h
    case isTrue =>
      cases h
      obtain ⟨hop, hfields⟩ := hform (idField c) (sourceField c) (stepFamilyField c)
      rw [encode, hop, hfields, opcode_or_stepFields_of_clear hclear]
    case isFalse => cases h
  | r mk =>
    simp only [Form.command] at h
    split at h
    next sel hsel =>
      cases h
      obtain ⟨hop, hfields⟩ := hform (idField c) sel
      rw [encode, hop, hfields, number_of_ofSelector hsel, opcode_or_readFields_of_clear hclear]
    next => cases h

/-- The encoder undoes the decoder: no bit of a legal word is ignored (30_encoding.md R48, R57). -/
theorem encode_of_decode {c : Word} {i : Instr} (h : decode c = .ok i) : encode i = c := by
  obtain ⟨e, he, hop, hclear, hcommand⟩ := row_of_decode h
  exact encode_of_command (hop ▸ opcodeMap_agrees e he) hclear hcommand

end Sys2Proof
end

section
/-!
SUPPORT. The checks of a command word in the order of 30_encoding.md R58, what a command answers by them, and the faults
it takes (60_exceptions.md R131 to R134).
-/

namespace Sys2Proof
namespace Machine

open Safety

/-! ### A command's own effect -/

section
variable {s t : State} (h : SameButResultsAndInstances s t)
include h

theorem SameButResultsAndInstances.status_eq : t.status = s.status := by
  rw [h]

theorem SameButResultsAndInstances.fcmd_eq : t.fcmd = s.fcmd := by
  rw [h]

theorem SameButResultsAndInstances.faulted_eq : t.faulted = s.faulted := by
  rw [State.faulted, h.status_eq, State.faulted]

end

/-! ### The checks after decoding -/

/-- The fault of the first check that fails: the instances are checked before the tables (30_encoding.md R58,
60_exceptions.md R132). -/
def firstFault (instances tables : Bool) : Option Cause :=
  if instances = false then some .badInstance else if tables = false then some .tableRange else none

/-- A command with word `c` issued in `s` answers a failed check with its fault, and otherwise completes
(60_exceptions.md R134). -/
def AnswersCheck (c : Word) (s : State) (failed : Option Cause) (outcome : Outcome) : Prop :=
  match failed with
  | some cause => outcome = .next (s.raise cause c)
  | none => ∃ t, outcome = .next t ∧ SameButResultsAndInstances s t

theorem AnswersCheck.of_fault {c : Word} {s : State} {cause : Cause} {outcome : Outcome}
    (h : outcome = .next (s.raise cause c)) : AnswersCheck c s (some cause) outcome := h

theorem AnswersCheck.of_effect {c : Word} {s t : State} {outcome : Outcome} (h : outcome = .next t)
    (hsame : SameButResultsAndInstances s t) : AnswersCheck c s none outcome := ⟨t, h, hsame⟩

/-- A command on one list of instances checks that list alone. -/
theorem complete_instance_answers (c : Word) {s : State} {α : Type} (xs : List α) (id : BitVec 8) {effect : α → State}
    (hsame : ∀ x, SameButResultsAndInstances s (effect x)) :
    AnswersCheck c s (firstFault (decide (id.toNat < xs.length)) true)
      (complete c s ((instanceAt xs id).map effect)) := by
  rcases instanceAt_cases xs id with ⟨x, hx, -⟩ | ⟨hle, -⟩
  · have hlt : id.toNat < xs.length := (List.getElem?_eq_some_iff.mp hx).1
    simp only [hlt, decide_true]
    exact .of_effect (complete_instance_of_some hx) (hsame x)
  · simp only [Nat.not_lt.mpr hle, decide_false]
    exact .of_fault (complete_instance_of_le hle)

/-! ### The spline evaluator -/

/-- The machine's range check is that the window's last position lies in the table (44_spline.md R100). -/
theorem inRange_eq_windowInTables (p : Config.Params) (fam : BitVec 4) (phase morph : Word) :
    inRange p fam phase morph = windowInTables p fam phase morph := by
  have hlast : phase.toNat / 65536 ≤ p.tableLength fam - 6 ↔ phase.toNat / 65536 + 6 ≤ p.tableLength fam := by
    rw [Config.Params.tableLength]
    omega
  have htable : morph.toNat / 65536 ≤ p.numTables fam - 1 ↔ morph.toNat / 65536 < p.numTables fam := by
    rw [Config.Params.numTables]
    omega
  simp only [inRange, windowInTables, leftIndex_eq_div, leftTable_eq_div, hlast, htable]

/-- The evaluator checks its family, then its window (44_spline.md R97). -/
theorem splineEval_checks (fam : BitVec 4) (phase morph : Word) (io : Option Word) (form : DeltaForm) :
    match firstFault (familyExists fam) (windowInTables Config.params fam phase morph) with
    | some cause => splineEval Config.params fam phase morph io form = .error cause
    | none => ∃ r, splineEval Config.params fam phase morph io form = .ok r := by
  rw [← inRange_eq_windowInTables, familyExists]
  rcases splineEval_cases Config.params fam phase morph io form with
    ⟨hfam, heval⟩ | ⟨hfam, hrange, heval⟩ | ⟨hfam, hrange, heval⟩
  · simpa [firstFault, Nat.not_lt.mpr hfam] using heval
  · simpa [firstFault, hfam, hrange] using heval
  · simpa [firstFault, hfam, hrange] using ⟨_, _, heval⟩

theorem splineCommand_answers (c : Word) (fam : BitVec 4) (io : Option Word) (form : DeltaForm) (s : State) :
    AnswersCheck c s (firstFault (familyExists fam) (windowInTables Config.params fam s.opa s.opb))
      (splineCommand Config.params c fam io form s) := by
  have hchecks := splineEval_checks fam s.opa s.opb io form
  split at hchecks
  next cause hfault =>
    rw [hfault, splineCommand, hchecks]
    exact .of_fault rfl
  next hnone =>
    obtain ⟨r, hr⟩ := hchecks
    rw [hnone, splineCommand, hr]
    exact .of_effect rfl rfl

/-! ### The step commands -/

/-- The three step commands on oscillator `id` (45_osc.md R121 to R123). -/
def stepCommands (id : BitVec 8) (src : Source) (fam : BitVec 4) : List Instr :=
  [.ostep id src fam, .ostepfm id src fam, .obeat id src fam]

section
variable {i : Instr} {id : BitVec 8} {src : Source} {fam : BitVec 4}

theorem mem_stepCommands_iff :
    i ∈ stepCommands id src fam ↔ i = .ostep id src fam ∨ i = .ostepfm id src fam ∨ i = .obeat id src fam := by
  simp [stepCommands]

/-- The step commands are one operation, each with its own word and its own new phase. -/
theorem exec_stepCommand (hi : i ∈ stepCommands id src fam) (s : State) :
    exec i s = oscStep Config.params (encode i) id src fam (nextPhase i · s) s := by
  rcases mem_stepCommands_iff.mp hi with rfl | rfl | rfl
  · have hphase : (fun o => nextPhase (.ostep id src fam) o s) = Osc.advance := by
      funext o
      simp [nextPhase, Osc.advance, BitVec.ofNat_add]
    rw [hphase]
    rfl
  · have hphase : (fun o => nextPhase (.ostepfm id src fam) o s) = fun o => o.advanceFM s.opa := by
      funext o
      rw [nextPhase, Osc.advanceFM, Config.fmFracBits, mul_eq_productBits _ _ (by decide)]
    rw [hphase]
    rfl
  · have hphase : (fun o => nextPhase (.obeat id src fam) o s) = fun o => o.beat s.opa := by
      funext o
      simp [nextPhase, Osc.beat, BitVec.ofNat_mul]
    rw [hphase]
    rfl

theorem instancesExist_stepCommand (hi : i ∈ stepCommands id src fam) (s : State) :
    instancesExist i s = (decide (id.toNat < s.osc.length) && (decide (src = .sine) || familyExists fam)) := by
  rcases mem_stepCommands_iff.mp hi with rfl | rfl | rfl <;> rfl

theorem tablesInRange_sineStep (hi : i ∈ stepCommands id .sine fam) (s : State) : tablesInRange i s = true := by
  rcases mem_stepCommands_iff.mp hi with rfl | rfl | rfl <;> rfl

theorem tablesInRange_splineStep (hi : i ∈ stepCommands id .spline fam) {s : State} {o : Osc}
    (ho : s.osc[id.toNat]? = some o) :
    tablesInRange i s =
      windowInTables Config.params fam (splinePhase Config.params fam (nextPhase i o s)) o.morph := by
  rcases mem_stepCommands_iff.mp hi with rfl | rfl | rfl <;> simp [tablesInRange, ho]

end

/-- The phase the spline path evaluates is the shifted one (45_osc.md R120). -/
theorem shiftRight_eq_splinePhase (p : Config.Params) (fam : BitVec 4) (phase : Word) :
    phase >>> (p.phaseShift fam).val = splinePhase p fam phase := by
  apply BitVec.eq_of_toNat_eq
  have hle : phase.toNat / 2 ^ (p.phaseShift fam).val ≤ phase.toNat := Nat.div_le_self _ _
  have := phase.isLt
  rw [splinePhase, BitVec.toNat_ushiftRight, Nat.shiftRight_eq_div_pow, BitVec.toNat_ofNat, Nat.mod_eq_of_lt (by omega)]

/-- A step command checks its oscillator and its family, then its window (45_osc.md R121). -/
theorem stepCommand_answers {i : Instr} {id : BitVec 8} {src : Source} {fam : BitVec 4}
    (hi : i ∈ stepCommands id src fam) (s : State) :
    AnswersCheck (encode i) s (firstFault (instancesExist i s) (tablesInRange i s)) (exec i s) := by
  rw [exec_stepCommand hi, instancesExist_stepCommand hi]
  rcases instanceAt_cases s.osc id with ⟨o, ho, -⟩ | ⟨hle, -⟩
  · have hlt : id.toNat < s.osc.length := (List.getElem?_eq_some_iff.mp ho).1
    cases src with
    | sine =>
      rw [tablesInRange_sineStep hi]
      simp only [hlt, decide_true]
      exact .of_effect (oscStep_ok ho rfl) rfl
    | spline =>
      have hinstances : (decide (id.toNat < s.osc.length) && (decide (Source.spline = .sine) || familyExists fam)) =
          familyExists fam := by simp [hlt]
      rw [hinstances, tablesInRange_splineStep hi ho, ← shiftRight_eq_splinePhase]
      have hchecks := splineEval_checks fam (nextPhase i o s >>> (Config.params.phaseShift fam).val) o.morph none .raw
      split at hchecks
      next cause hfault =>
        rw [hfault]
        exact .of_fault (oscStep_error ho (congrArg (Except.map Prod.fst) hchecks))
      next hnone =>
        obtain ⟨r, hr⟩ := hchecks
        rw [hnone]
        exact .of_effect (oscStep_ok ho (congrArg (Except.map Prod.fst) hr)) rfl
  · simp only [Nat.not_lt.mpr hle, decide_false, Bool.false_and]
    exact .of_fault (oscStep_badInstance hle)

/-! ### Every command -/

/-- What any command answers: the fault of the first of its checks that fails, or its effect (30_encoding.md R58,
60_exceptions.md R132, R134). -/
theorem exec_answers (i : Instr) (s : State) :
    AnswersCheck (encode i) s (firstFault (instancesExist i s) (tablesInRange i s)) (exec i s) := by
  cases i with
  | bwr8 id | brd8 id | bwr32 id | brd32 id | bwr256 id | brd256 id =>
    exact complete_instance_answers _ _ id fun _ => rfl
  | osetf id | osetm id | opm id | orst id | ord id sel => exact complete_instance_answers _ _ id fun _ => rfl
  | qevalRaw fam | qevalSgn fam | qevaliRaw fam | qevaliSgn fam => exact splineCommand_answers _ fam _ _ s
  | ostep id src fam | ostepfm id src fam | obeat id src fam =>
    exact stepCommand_answers (id := id) (src := src) (fam := fam) (by simp [stepCommands]) s
  | _ => exact .of_effect rfl rfl

/-! ### Issuing a word -/

theorem issue_of_decode_ok {c : Word} {s : State} {i : Instr} (hs : s.faulted = false) (h : decode c = .ok i) :
    issue c s = exec i s := by
  simp [issue, hs, h]

/-- A legal word's first failing check, as the cause's code. -/
theorem firstFailure_of_decode_ok {c : Word} {i : Instr} (h : decode c = .ok i) (s : State) :
    firstFailure c s = (firstFault (instancesExist i s) (tablesInRange i s)).map fun cause => cause.code.toNat := by
  cases hinstances : instancesExist i s <;> cases htables : tablesInRange i s <;>
    simp [firstFailure, h, hinstances, htables, firstFault, Cause.code]

/-- Issuing the word of a command answers that command's checks with the issued word. -/
theorem issue_answers {c : Word} {s : State} {i : Instr} (hs : s.faulted = false) (h : decode c = .ok i) :
    AnswersCheck c s (firstFault (instancesExist i s) (tablesInRange i s)) (issue c s) := by
  have hanswers := exec_answers i s
  rwa [encode_of_decode h, ← issue_of_decode_ok hs h] at hanswers

/-- Settles O42: an illegal word fails the first check, and any other word answers its command's checks in their
order. -/
theorem firstFailingCheckDecidesTheFault : Obligations.FirstFailingCheckDecidesTheFault := by
  intro c s hs
  cases hdecode : decode c with
  | error err =>
    simp only [firstFailure, hdecode]
    exact issue_of_decode_error hs hdecode
  | ok i =>
    have hanswers := issue_answers hs hdecode
    rw [firstFailure_of_decode_ok hdecode]
    cases hfault : firstFault (instancesExist i s) (tablesInRange i s) with
    | some cause =>
      rw [hfault] at hanswers
      exact hanswers.trans (congrArg _ (raise_eq_faultEntry hs cause c))
    | none =>
      rw [hfault] at hanswers
      obtain ⟨t, ht, hsame⟩ := hanswers
      exact ⟨t, ht, hsame.status_eq, hsame.fcmd_eq⟩

/-! ### A fault is all or nothing -/

/-- Issuing a word with no fault recorded has an effect on results, buffers and oscillators only, or takes a fault with
that word. -/
theorem issue_cases {c : Word} {s t : State} (hs : s.faulted = false) (h : issue c s = .next t) :
    SameButResultsAndInstances s t ∨ ∃ cause, t = s.raise cause c := by
  cases hdecode : decode c with
  | error err =>
    rw [issue_of_decode_error hs hdecode] at h
    exact .inr ⟨.illegal, (Host.Outcome.next.inj h).symm.trans (raise_eq_faultEntry hs .illegal c).symm⟩
  | ok i =>
    obtain ⟨effect, hexec, hsame⟩ := exec_complete i s
    rw [issue_of_decode_ok hs hdecode, hexec, encode_of_decode hdecode] at h
    rcases complete_cases h with heffect | ⟨cause, -, hraise⟩
    · exact .inl (hsame t heffect)
    · exact .inr ⟨cause, hraise⟩

theorem Cause.code_range (cause : Cause) : cause.code = 1#3 ∨ cause.code = 2#3 ∨ cause.code = 3#3 := by
  cases cause <;> decide

/-- A fault keeps the reserved bits of STATUS (60_exceptions.md R133). -/
theorem faultStatus_reserved (status : Word) (cause : Cause) :
    (faultStatus status cause).extractLsb' 4 28 = status.extractLsb' 4 28 := by
  have hmask : ∀ k < 28, (0xFFFFFFF0#32).getLsbD (4 + k) = true := by decide
  apply BitVec.eq_of_getLsbD_eq
  intro k hk
  simp [faultStatus, -BitVec.getLsbD_eq_getElem, hk, hmask k hk, BitVec.getLsbD_one]

/-- Settles O43: a command that ends in a fault has raised it, since its own effect leaves STATUS. -/
theorem faultsArePrecise : Obligations.FaultsArePrecise := by
  intro c s t hs h ht
  rcases issue_cases hs h with hsame | ⟨cause, rfl⟩
  · simp [hsame.faulted_eq, hs] at ht
  · rw [State.raise_eq hs]
    refine ⟨rfl, ?_, faultStatus_reserved s.status cause⟩
    simpa only [faultStatus_cause] using cause.code_range

end Machine
end Sys2Proof
end

section
/-!
SUPPORT. What reset leaves, and what the first commands on a fresh instance give (70_reset_and_hazards.md R147, R149).
-/

namespace Sys2Proof
namespace Machine

open Safety

/-! ### The reset state (R147) -/

/-- A fresh buffer holds 0 in its cursor and in every slot (10_state.md R22). -/
theorem Buf.reset_cleared (d : Nat) : (Buf.reset d).cursor = 0#32 ∧ ∀ k : Fin d, (Buf.reset d).data[k] = 0#32 :=
  ⟨rfl, fun k => by simp [Buf.reset]⟩

/-- Settles O54: each list of instances repeats the fresh instance as often as its parameter says. -/
theorem resetStateOfTheBlock : Obligations.ResetStateOfTheBlock := by
  refine ⟨rfl, rfl, List.length_replicate, List.length_replicate, List.length_replicate, List.length_replicate,
    fun b hb => ?_, fun b hb => ?_, fun b hb => ?_, fun o ho => ?_⟩
  · exact List.eq_of_mem_replicate hb ▸ Buf.reset_cleared 8
  · exact List.eq_of_mem_replicate hb ▸ Buf.reset_cleared 32
  · exact List.eq_of_mem_replicate hb ▸ Buf.reset_cleared 256
  · obtain rfl : o = Osc.reset := List.eq_of_mem_replicate ho
    exact ⟨rfl, rfl, rfl, rfl, rfl⟩

/-! ### A read of a fresh buffer (R149 (a)) -/

theorem Buf.read_reset {d : Nat} [NeZero d] (k : Word) : (Buf.reset d).read k = 0#32 :=
  Buf.read_reset_cursor 0#32 k

/-- A command that reads a fresh buffer writes 0 to RES0, whatever the offset. -/
theorem complete_read_reset {d : Nat} [NeZero d] {xs : List (Buf d)} {id : BitVec 8} (c : Word) (s : State)
    (h : xs[id.toNat]? = some (Buf.reset d)) :
    complete c s ((instanceAt xs id).map fun b => s.setRes0 (b.read s.opa)) = .next (s.setRes0 0#32) := by
  rw [complete_instance_of_some h, Buf.read_reset]

/-! ### A step of a fresh oscillator (R149 (b)) -/

/-- Storing the oscillator an instance already holds changes nothing. -/
theorem State.setOsc_self {s : State} {id : BitVec 8} {o : Osc} (ho : s.osc[id.toNat]? = some o) :
    s.setOsc id o = s := by
  obtain ⟨hlt, rfl⟩ := List.getElem?_eq_some_iff.mp ho
  rw [State.setOsc, List.set_getElem_self hlt]

/-- With frequency, phase and nudge 0 every step command leaves the phase at 0 (45_osc.md R121 to R123). -/
theorem nextPhase_reset {i : Instr} {id : BitVec 8} {src : Source} {fam : BitVec 4} (hi : i ∈ stepCommands id src fam)
    (s : State) : nextPhase i Osc.reset s = 0#32 := by
  rcases mem_stepCommands_iff.mp hi with rfl | rfl | rfl
  · rfl
  · simp [nextPhase, Osc.reset, productBits]
  · simp [nextPhase, Osc.reset]

/-- A step of a fresh oscillator whose sample source answers writes the sample and phase 0 to the results, and leaves the
oscillator fresh. -/
theorem exec_stepCommand_reset {i : Instr} {id : BitVec 8} {src : Source} {fam : BitVec 4} {s : State} {y : Word}
    (hi : i ∈ stepCommands id src fam) (ho : s.osc[id.toNat]? = some Osc.reset)
    (hy : oscEval Config.params src fam 0#32 Osc.reset.morph = .ok y) : exec i s = .next (s.setResults y 0#32) := by
  have hphase := nextPhase_reset hi s
  have hfresh : { Osc.reset with phase := 0#32 } = Osc.reset := rfl
  rw [exec_stepCommand hi, oscStep_ok ho (hphase ▸ hy), hphase, hfresh, State.setOsc_self ho]

/-- A step of a fresh oscillator whose sample source faults takes that fault. -/
theorem exec_stepCommand_reset_fault {i : Instr} {id : BitVec 8} {src : Source} {fam : BitVec 4} {s : State}
    {cause : Cause} (hi : i ∈ stepCommands id src fam) (ho : s.osc[id.toNat]? = some Osc.reset)
    (hy : oscEval Config.params src fam 0#32 Osc.reset.morph = .error cause) :
    exec i s = .next (s.raise cause (encode i)) := by
  rw [exec_stepCommand hi, oscStep_error ho (nextPhase_reset hi s ▸ hy)]

/-- At phase 0 the sine path gives the first table word (45_osc.md R119). -/
theorem sineSample_zero (p : Config.Params) : sineSample p 0#32 = p.sine 0#12 := by
  have hfraction : sineFraction p 0#32 = 0#32 := by simp [sineFraction]
  rw [sineSample, hfraction, lerpF_zero_fraction]
  rfl

theorem phaseFraction_eq_ofNat (phase : Word) : phaseFraction phase = BitVec.ofNat 16 (phase.toNat % 65536) :=
  BitVec.eq_of_toNat_eq (by simp [phaseFraction])

/-- Without a blend factor an evaluation's sample is its quintic result (44_spline.md R97). -/
theorem splineSample_eq_quinticResult (p : Config.Params) (fam : BitVec 4) (phase morph : Word) :
    splineSample p (splineWindow p fam phase morph) (phaseFraction phase) none = quinticResult p fam phase morph := by
  rw [splineSample_none, satS_eq_clampSigned, splineWindow_eq_windowSamples, phaseFraction_eq_ofNat]
  rfl

/-- What the spline path answers is the quintic result at the shifted phase (45_osc.md R120). -/
theorem splinePath_of_ok {p : Config.Params} {fam : BitVec 4} {phase morph y : Word}
    (h : splinePath p fam phase morph = .ok y) : y = quinticResult p fam (splinePhase p fam phase) morph := by
  rw [splinePath, shiftRight_eq_splinePhase] at h
  rcases splineEval_cases p fam (splinePhase p fam phase) morph none .raw with
    ⟨-, heval⟩ | ⟨-, -, heval⟩ | ⟨-, -, heval⟩
  · rw [heval] at h
    cases h
  · rw [heval] at h
    cases h
  · rw [heval, splineSample_eq_quinticResult] at h
    exact (Except.ok.inj h).symm

/-- The shifted phase 0 is phase 0. -/
theorem splinePhase_zero (p : Config.Params) (fam : BitVec 4) : splinePhase p fam 0#32 = 0#32 := by
  simp [splinePhase]

/-- A spline step of a fresh oscillator that ends in no fault answers the quintic result at phase 0 and morph 0. -/
theorem splineStep_reset {i : Instr} {id : BitVec 8} {fam : BitVec 4} {s t : State}
    (hi : i ∈ stepCommands id .spline fam) (ho : s.osc[id.toNat]? = some Osc.reset) (h : exec i s = .next t)
    (ht : t.faulted = false) : t.res0 = quinticResult Config.params fam 0#32 0#32 ∧ t.res1 = 0#32 := by
  cases hy : oscEval Config.params .spline fam 0#32 Osc.reset.morph with
  | error cause =>
    obtain rfl := Host.Outcome.next.inj ((exec_stepCommand_reset_fault hi ho hy).symm.trans h)
    simp [State.raise_faulted] at ht
  | ok y =>
    obtain rfl := Host.Outcome.next.inj ((exec_stepCommand_reset hi ho hy).symm.trans h)
    have hsample := splinePath_of_ok hy
    rw [splinePhase_zero] at hsample
    exact ⟨hsample, rfl⟩

/-! ### The first OPM (R149 (c)) -/

/-- With no last input the whole input is the nudge (45_osc.md R115). -/
theorem Osc.modulate_reset (pmInput : Word) :
    Osc.reset.modulate pmInput = { Osc.reset with phaseModulation := pmInput, lastPhaseModulation := pmInput } := by
  simp [Osc.modulate, Osc.reset]

/-! ### The fault record (R149 (d)) -/

/-- A word that ends in no fault leaves the record as it was, since its own effect does not reach it. -/
theorem issue_keeps_record {c : Word} {s t : State} (hs : s.faulted = false) (h : issue c s = .next t)
    (ht : t.faulted = false) : t.status = s.status ∧ t.fcmd = s.fcmd := by
  rcases issue_cases hs h with hsame | ⟨cause, rfl⟩
  · exact ⟨hsame.status_eq, hsame.fcmd_eq⟩
  · simp [State.raise_faulted] at ht

/-- An access other than the reset that ends in no fault leaves the record as it was. -/
theorem hostAccess_keeps_record {a : Access} {s t : State} (ha : a ≠ .reset) (hs : s.faulted = false)
    (h : hostAccess a s = .next t) (ht : t.faulted = false) : t.status = s.status ∧ t.fcmd = s.fcmd := by
  cases a with
  | reset => exact absurd rfl ha
  | read offset bytes =>
    obtain ⟨r, -, -, rfl⟩ := hostAccess_read h
    exact ⟨rfl, rfl⟩
  | write offset bytes v =>
    rcases hostAccess_write h with ⟨-, ⟨-, hissue⟩ | ⟨r, -, -, rfl⟩⟩
    · exact issue_keeps_record hs hissue ht
    · exact ⟨s.writeHost_status r v, s.writeHost_fcmd r v⟩

/-- A step from a clear record that ends in no fault leaves it clear. -/
theorem step_keeps_clear_record {s t : State} (hstatus : s.status = 0#32) (hfcmd : s.fcmd = 0#32)
    (h : step s = .next t) (ht : t.faulted = false) : t.status = 0#32 ∧ t.fcmd = 0#32 := by
  have hs : s.faulted = false := by simp [State.faulted, hstatus]
  rw [step, hostStep] at h
  split at h
  next =>
    obtain rfl := Host.Outcome.next.inj h
    exact ⟨hstatus, hfcmd⟩
  next a rest _ =>
    by_cases ha : a = .reset
    · subst ha
      obtain rfl := Host.Outcome.next.inj h
      exact ⟨rfl, rfl⟩
    · obtain ⟨hstatus', hfcmd'⟩ := hostAccess_keeps_record (s := { s with pending := rest, reply := none }) ha hs h ht
      exact ⟨hstatus'.trans hstatus, hfcmd'.trans hfcmd⟩

/-- Settles O56: a fresh buffer holds only 0, a fresh oscillator's next phase and last input are 0, and only a fault or
the reset writes the record. -/
theorem consequencesOfReset : Obligations.ConsequencesOfReset := by
  refine ⟨fun id s => ⟨complete_read_reset _ s, complete_read_reset _ s, complete_read_reset _ s⟩,
    fun id s ho => ⟨fun i hi => ?_, fun fam t i hi => splineStep_reset hi ho, ?_⟩,
    fun s t => step_keeps_clear_record⟩
  · exact exec_stepCommand_reset hi ho (congrArg Except.ok (sineSample_zero Config.params))
  · rw [exec_opm, complete_instance_of_some ho, Osc.modulate_reset]
    rfl

end Machine
end Sys2Proof
end

section
/-!
SUPPORT. The decoder and the encoder undo each other: every command comes from a row of the opcode map, every row
decodes the words it encodes, and a word's byte image is that word again (30_encoding.md R47 to R62, 20_memory.md R41).
-/

namespace Sys2Proof

open Machine

/-! ### The commands of a row -/

/-- The commands a row of the opcode map stands for: its format's field values, a family only where the source admits
one (30_encoding.md R49 to R54, R57 (c)). -/
def Form.Makes (form : Form) (i : Instr) : Prop :=
  match form with
  | .n cmd => i = cmd
  | .s mk => ∃ n, i = mk n
  | .i mk => ∃ id, i = mk id
  | .f mk => ∃ fam, i = mk fam
  | .o mk => ∃ id src fam, i = mk id src fam ∧ src.admitsFamily fam = true
  | .r mk => ∃ id sel, i = mk id sel

/-- The well-formed commands are those the row of their opcode makes. -/
theorem wellFormed_iff_row (i : Instr) :
    i.WellFormed ↔ ∃ form, opcodeMap.lookup i.opcode = some form ∧ form.Makes i := by
  constructor
  · intro h
    cases i with
    | satu n | sats n => exact ⟨_, rfl, n, rfl⟩
    | bwr8 id | brd8 id | bwr32 id | brd32 id | bwr256 id | brd256 id => exact ⟨_, rfl, id, rfl⟩
    | osetf id | osetm id | opm id | orst id => exact ⟨_, rfl, id, rfl⟩
    | qevalRaw fam | qevalSgn fam | qevaliRaw fam | qevaliSgn fam => exact ⟨_, rfl, fam, rfl⟩
    | ostep id src fam | ostepfm id src fam | obeat id src fam => exact ⟨_, rfl, id, src, fam, rfl, h⟩
    | ord id sel => exact ⟨_, rfl, id, sel, rfl⟩
    | _ => exact ⟨_, rfl, rfl⟩
  · rintro ⟨form, hrow, hmakes⟩
    cases i with
    | ostep id src fam | ostepfm id src fam | obeat id src fam =>
      obtain rfl := Option.some.inj (show some (Form.o _) = some form from hrow)
      obtain ⟨_, _, _, heq, hadmits⟩ := hmakes
      cases heq
      exact hadmits
    | _ => rfl

/-- The checks on a word's fields let through only what its row makes (30_encoding.md R57 (c), (d)). -/
theorem makes_of_command {form : Form} {c : Word} {i : Instr} (h : form.command c = .ok i) : form.Makes i := by
  cases form with
  | n cmd => cases h; rfl
  | s mk | i mk | f mk => cases h; exact ⟨_, rfl⟩
  | o mk =>
    simp only [Form.command] at h
    split at h
    case isTrue hadmits => cases h; exact ⟨_, _, _, rfl, hadmits⟩
    case isFalse => cases h
  | r mk =>
    simp only [Form.command] at h
    split at h
    next => cases h; exact ⟨_, _, rfl⟩
    next => cases h

/-! ### The words of formats F and O -/

/-- The word of a family in a row of format F is decoded as that row's command (30_encoding.md R52, R60). -/
theorem decode_formatF {e : BitVec 8 × Form} (he : e ∈ opcodeMap) {mk : BitVec 4 → Instr} (hmk : e.2 = .f mk)
    (fam : BitVec 4) : decode (BitVec.ofNat 32 (e.1.toNat + fam.toNat * 2 ^ 8)) = .ok (mk fam) := by
  have hword : BitVec.ofNat 32 (e.1.toNat + fam.toNat * 2 ^ 8) = e.1.setWidth 32 ||| fam.setWidth 32 <<< 8 := by
    rw [setWidth_or_shift_eq_ofNat, BitVec.toNat_setWidth_of_le (by decide)]
  have hclear : (e.1.setWidth 32 ||| fam.setWidth 32 <<< 8) &&& Format.f.reservedMask = 0#32 := by
    rw [or_shift_and_mask _ _ _ (reservedMask_spares_opcode _), family_reserved]
  rw [hword, decode_of_row he (opcodeField_or_shift _ _), hmk]
  simp [Form.format, Form.command, hclear, familyField_encoded]

/-- The word of a step command in a row of format O is decoded as that row's command, if its source admits its family
(30_encoding.md R53, R57 (c), R60). -/
theorem decode_formatO {e : BitVec 8 × Form} (he : e ∈ opcodeMap) {mk : BitVec 8 → Source → BitVec 4 → Instr}
    (hmk : e.2 = .o mk) (id : BitVec 8) {src : Source} {fam : BitVec 4} (hadmits : src.admitsFamily fam = true) :
    decode (e.1.setWidth 32 ||| stepFields id src fam) = .ok (mk id src fam) := by
  have hopcode : opcodeField (e.1.setWidth 32 ||| stepFields id src fam) = e.1 := by
    rw [stepFields_eq_byte, opcodeField_or_shift]
  have hclear : (e.1.setWidth 32 ||| stepFields id src fam) &&& Format.o.reservedMask = 0#32 := by
    rw [stepFields_eq_byte, or_shift_and_mask _ _ _ (reservedMask_spares_opcode _), ← stepFields_eq_byte,
      step_reserved]
  have hid : idField (e.1.setWidth 32 ||| stepFields id src fam) = id := by
    rw [stepFields_eq_shift, idField_encoded_above]
  rw [decode_of_row he hopcode, hmk]
  simp [Form.format, Form.command, hclear, hid, sourceField_encoded, stepFamilyField_encoded, hadmits]

/-! ### The round trips -/

/-- A row decodes the word of each command it makes as that command, format by format. -/
theorem decode_encode_of_row {e : BitVec 8 × Form} (he : e ∈ opcodeMap) {i : Instr} (hi : e.2.Makes i) :
    decode (encode i) = .ok i := by
  have hrow := opcodeMap_agrees e he
  cases hform : e.2 with
  | n cmd =>
    rw [hform] at hi hrow
    obtain ⟨hop, hfields⟩ := hrow
    rw [show i = cmd from hi, encode, hop, hfields, BitVec.or_zero, decode_formatN he hform]
  | s mk =>
    rw [hform] at hi
    obtain ⟨n, rfl⟩ := hi
    rw [encode_formatS he hform, decode_formatS he hform]
  | i mk =>
    rw [hform] at hi
    obtain ⟨id, rfl⟩ := hi
    rw [encode_formatI he hform, decode_formatI he hform]
  | f mk =>
    rw [hform] at hi
    obtain ⟨fam, rfl⟩ := hi
    rw [encode_formatF he hform, decode_formatF he hform]
  | o mk =>
    rw [hform] at hi hrow
    obtain ⟨id, src, fam, rfl, hadmits⟩ := hi
    obtain ⟨hop, hfields⟩ := hrow id src fam
    rw [encode, hop, hfields, decode_formatO he hform id hadmits]
  | r mk =>
    rw [hform] at hi
    obtain ⟨id, sel, rfl⟩ := hi
    rw [encode_formatR he hform, decode_formatR he hform]

/-- Settles O1: a well-formed command is made by a row, and the row decodes its word. -/
theorem decodeOfEncodeIsTheCommand : Obligations.DecodeOfEncodeIsTheCommand := by
  intro i hi
  obtain ⟨form, hrow, hmakes⟩ := (wellFormed_iff_row i).mp hi
  exact decode_encode_of_row (lookup_opcodeMap_iff.mp hrow) hmakes

/-- Settles O2: a legal word passes its row's checks, so the row makes its command, and the encoder joins the word's
own opcode and fields again. -/
theorem encodeOfDecodeIsTheWord : Obligations.EncodeOfDecodeIsTheWord := by
  intro c i h
  obtain ⟨e, he, hop, -, hcommand⟩ := row_of_decode h
  have hrow : opcodeMap.lookup i.opcode = some e.2 := by
    rw [opcode_of_decode h, hop]
    exact lookup_opcodeMap_iff.mpr he
  exact ⟨(wellFormed_iff_row i).mpr ⟨e.2, hrow, makes_of_command hcommand⟩, encode_of_decode h⟩

/-! ### Byte images -/

/-- The four bytes of a word make that word (20_memory.md R41). -/
theorem wordOfBytes_of_bytes (c : Word) :
    wordOfBytes (c.extractLsb' 0 8) (c.extractLsb' 8 8) (c.extractLsb' 16 8) (c.extractLsb' 24 8) = c := by
  apply BitVec.eq_of_getLsbD_eq
  intro k hk
  simp only [wordOfBytes, BitVec.getLsbD_or, BitVec.getLsbD_setWidth, BitVec.getLsbD_shiftLeft,
    BitVec.getLsbD_extractLsb']
  grind

/-- The byte decoder on a word's image answers as the word decoder does, and leaves the rest (30_encoding.md R47,
R62). -/
theorem decodeBytes_wordBytes (c : Word) (rest : List Byte) :
    decodeBytes (wordBytes c ++ rest) = (decode c).map fun i => (i, rest) := by
  simp only [wordBytes, List.cons_append, List.nil_append, decodeBytes, wordOfBytes_of_bytes]
  cases decode c <;> rfl

theorem decodeBytes_of_short {bytes : List Byte} (h : bytes.length < 4) : decodeBytes bytes = .error .truncated := by
  match bytes, h with
  | [], _ | [_], _ | [_, _], _ | [_, _, _], _ => rfl

/-- Byte `k` of the image holds bits `8k+7:8k` (20_memory.md R41). -/
theorem wordBytes_getElem? (c : Word) {k : Nat} {b : Byte} (h : (wordBytes c)[k]? = some b) :
    b = c.extractLsb' (8 * k) 8 := by
  match k with
  | 0 | 1 | 2 | 3 => exact (Option.some.inj h).symm
  | _ + 4 => simp [wordBytes] at h

/-- Settles O5: the image's bytes make the word again, and each byte is eight of its bits. -/
theorem byteImageDecodesAsOneWord : Obligations.ByteImageDecodesAsOneWord := by
  refine ⟨fun c i rest h => ?_, fun c e rest h => ?_, fun bytes => decodeBytes_of_short, fun c k b h => ?_⟩
  · rw [decodeBytes_wordBytes, h]; rfl
  · rw [decodeBytes_wordBytes, h]; rfl
  · rw [wordBytes_getElem? c h, BitVec.extractLsb'_toNat, Nat.shiftRight_eq_div_pow]

/-- Settles O6: each word is decoded by computation, field by field. -/
theorem writtenOutWordsDecode : Obligations.WrittenOutWordsDecode := by
  unfold Obligations.WrittenOutWordsDecode
  decide

end Sys2Proof
end

section
/-!
SUPPORT. What a command reads and writes: two states that agree on the operands its row of the opcode map reads, and on
the instances, answer it with the same writes or the same fault (30_encoding.md R56, 60_exceptions.md R134).
-/

namespace Sys2Proof
namespace Machine

open Safety

/-! ### A register of the host map set from outside -/

section
variable (s : State) (r : HostReg) (v : Word)

@[simp] theorem poke_status : (poke s r v).status = s.status := by cases r <;> rfl
@[simp] theorem poke_fcmd : (poke s r v).fcmd = s.fcmd := by cases r <;> rfl
@[simp] theorem poke_buf8 : (poke s r v).buf8 = s.buf8 := by cases r <;> rfl
@[simp] theorem poke_buf32 : (poke s r v).buf32 = s.buf32 := by cases r <;> rfl
@[simp] theorem poke_buf256 : (poke s r v).buf256 = s.buf256 := by cases r <;> rfl
@[simp] theorem poke_osc : (poke s r v).osc = s.osc := by cases r <;> rfl
@[simp] theorem poke_pending : (poke s r v).pending = s.pending := by cases r <;> rfl
@[simp] theorem poke_faulted : (poke s r v).faulted = s.faulted := by cases r <;> rfl

/-- Setting a register to the value it holds changes nothing. -/
theorem poke_readHost : poke s r (s.readHost r) = s := by cases r <;> rfl

/-- A fault touches no register that can be set. -/
theorem raise_poke (cause : Cause) (c : Word) : (poke s r v).raise cause c = poke (s.raise cause c) r v := by
  rw [State.raise, State.raise, poke_faulted]
  split
  case isTrue => rfl
  case isFalse => cases r <;> rfl

end

/-- What a register reads after one was set: the registers with no reset value are the ones with storage of their
own. -/
theorem readHost_poke (s : State) (r r' : HostReg) (v : Word) :
    (poke s r v).readHost r' = if r = r' ∧ r ∈ unspecifiedAtReset then v else s.readHost r' := by
  cases r <;> cases r' <;> rfl

/-- Setting one register leaves every other as it was. -/
theorem readHost_poke_of_ne {r r' : HostReg} (h : r ≠ r') (s : State) (v : Word) :
    (poke s r v).readHost r' = s.readHost r' := by
  rw [readHost_poke, if_neg fun heq => h heq.1]

/-! ### The parts of the state a command reads -/

/-- The two states agree on the operand registers the command's row reads and on every instance (30_encoding.md R56). -/
structure SameInputs (i : Instr) (s s' : State) : Prop where
  operands : ∀ r ∈ operandsRead i, s.readHost r = s'.readHost r
  buf8 : s.buf8 = s'.buf8
  buf32 : s.buf32 = s'.buf32
  buf256 : s.buf256 = s'.buf256
  osc : s.osc = s'.osc

theorem SameInputs.refl (i : Instr) (s : State) : SameInputs i s s := ⟨fun _ _ => rfl, rfl, rfl, rfl, rfl⟩

theorem SameInputs.trans {i : Instr} {s s' s'' : State} (h : SameInputs i s s') (h' : SameInputs i s' s'') :
    SameInputs i s s'' :=
  ⟨fun r hr => (h.operands r hr).trans (h'.operands r hr), h.buf8.trans h'.buf8, h.buf32.trans h'.buf32,
    h.buf256.trans h'.buf256, h.osc.trans h'.osc⟩

section
variable {i : Instr} {s s' : State} (h : SameInputs i s s')
include h

theorem SameInputs.opa (hr : .opa ∈ operandsRead i) : s.opa = s'.opa := h.operands .opa hr
theorem SameInputs.opb (hr : .opb ∈ operandsRead i) : s.opb = s'.opb := h.operands .opb hr
theorem SameInputs.opc (hr : .opc ∈ operandsRead i) : s.opc = s'.opc := h.operands .opc hr
theorem SameInputs.opd (hr : .opd ∈ operandsRead i) : s.opd = s'.opd := h.operands .opd hr
theorem SameInputs.ope (hr : .ope ∈ operandsRead i) : s.ope = s'.ope := h.operands .ope hr
theorem SameInputs.opf (hr : .opf ∈ operandsRead i) : s.opf = s'.opf := h.operands .opf hr

end

/-- Setting a register the row does not read leaves what the command reads. -/
theorem SameInputs.of_poke {i : Instr} {r : HostReg} (hr : r ∉ operandsRead i) (s : State) (v : Word) :
    SameInputs i s (poke s r v) where
  operands r' hr' := (readHost_poke_of_ne (fun heq : r = r' => hr (heq ▸ hr')) s v).symm
  buf8 := (poke_buf8 s r v).symm
  buf32 := (poke_buf32 s r v).symm
  buf256 := (poke_buf256 s r v).symm
  osc := (poke_osc s r v).symm

/-- The reads column names operand registers only. -/
theorem operandsRead_subset (i : Instr) : operandsRead i ⊆ [.opa, .opb, .opc, .opd, .ope, .opf] := by
  cases i <;> simp [operandsRead]

/-! ### What a command writes -/

/-- The writes of one command: a value for a result register, an instance for its number, or none. -/
structure Writes where
  res0 : Option Word := none
  res1 : Option Word := none
  buf8 : Option (BitVec 8 × Buf 8) := none
  buf32 : Option (BitVec 8 × Buf 32) := none
  buf256 : Option (BitVec 8 × Buf 256) := none
  osc : Option (BitVec 8 × Osc) := none

/-- A list of instances after the write of one of them, if there is a write. -/
def storeInstance {α : Type} (xs : List α) : Option (BitVec 8 × α) → List α
  | none => xs
  | some (id, x) => xs.set id.toNat x

theorem length_storeInstance {α : Type} (xs : List α) (w : Option (BitVec 8 × α)) :
    (storeInstance xs w).length = xs.length := by
  rcases w with - | ⟨id, x⟩
  · rfl
  · exact List.length_set

/-- An instance that differs after a write is the one written. -/
theorem storeInstance_changed {α : Type} {xs : List α} {w : Option (BitVec 8 × α)} {k : Nat}
    (h : (storeInstance xs w)[k]? ≠ xs[k]?) : ∃ id x, w = some (id, x) ∧ id.toNat = k := by
  rcases w with - | ⟨id, x⟩
  · exact absurd rfl h
  · exact ⟨id, x, rfl, by_contra fun hne => h (List.getElem?_set_ne hne)⟩

/-- The state after a command's writes. -/
def Writes.apply (w : Writes) (s : State) : State :=
  { s with
    res0 := w.res0.getD s.res0
    res1 := w.res1.getD s.res1
    buf8 := storeInstance s.buf8 w.buf8
    buf32 := storeInstance s.buf32 w.buf32
    buf256 := storeInstance s.buf256 w.buf256
    osc := storeInstance s.osc w.osc }

/-- What is written to a register of the host map. -/
def Writes.result (w : Writes) (r : HostReg) : Option Word :=
  match r with
  | .res0 => w.res0
  | .res1 => w.res1
  | _ => none

/-- The result registers written. -/
def Writes.registers (w : Writes) : List HostReg :=
  (w.res0.map fun _ => HostReg.res0).toList ++ (w.res1.map fun _ => HostReg.res1).toList

theorem Writes.mem_registers_iff {w : Writes} {r : HostReg} : r ∈ w.registers ↔ ∃ x, w.result r = some x := by
  cases r <;> simp [Writes.registers, Writes.result]

/-- A value set before the writes stands after them, unless it was written over. -/
theorem Writes.apply_poke (w : Writes) (s : State) (r : HostReg) (v : Word) :
    w.apply (poke s r v) = poke (w.apply s) r ((w.result r).getD v) := by
  cases r <;> rfl

/-- Setting a written register to what was written changes nothing. -/
theorem Writes.poke_apply_of_result {w : Writes} {r : HostReg} {x : Word} (h : w.result r = some x) (s : State) :
    poke (w.apply s) r x = w.apply s := by
  cases r with
  | res0 =>
    have hvalue : (w.apply s).res0 = x := by rw [Writes.apply, show w.res0 = some x from h, Option.getD_some]
    rw [← hvalue]
    rfl
  | res1 =>
    have hvalue : (w.apply s).res1 = x := by rw [Writes.apply, show w.res1 = some x from h, Option.getD_some]
    rw [← hvalue]
    rfl
  | _ => cases h

/-- The commands that write oscillator `id` (45_osc.md R113 to R116, R121 to R123). -/
def oscillatorWriters (id : BitVec 8) (src : Source) (fam : BitVec 4) : List Instr :=
  [.osetf id, .osetm id, .opm id, .orst id] ++ stepCommands id src fam

/-- The writes are ones the command can make: the result registers of its row, and the instance its field names
(30_encoding.md R56, 42_buffer.md R84 (d)). -/
structure AllowedWrites (i : Instr) (w : Writes) : Prop where
  registers : w.registers = resultsWritten i
  buf8 : ∀ id b, w.buf8 = some (id, b) → i = .bwr8 id
  buf32 : ∀ id b, w.buf32 = some (id, b) → i = .bwr32 id
  buf256 : ∀ id b, w.buf256 = some (id, b) → i = .bwr256 id
  osc : ∀ id o, w.osc = some (id, o) → ∃ src fam, i ∈ oscillatorWriters id src fam

/-- Two outcomes of a command, in `s` and in `s'`, are the same fault or the same writes. -/
def AnswersAlike (i : Instr) (s s' : State) (outcome outcome' : Outcome) : Prop :=
  (∃ cause, outcome = .next (s.raise cause (encode i)) ∧ outcome' = .next (s'.raise cause (encode i))) ∨
    ∃ w, AllowedWrites i w ∧ outcome = .next (w.apply s) ∧ outcome' = .next (w.apply s')

/-! ### The same inputs give the same writes -/

section
variable {i : Instr} {s s' : State}

theorem AnswersAlike.of_res0 {v : Word} {outcome outcome' : Outcome} (hrow : resultsWritten i = [.res0])
    (h : outcome = .next (s.setRes0 v)) (h' : outcome' = .next (s'.setRes0 v)) :
    AnswersAlike i s s' outcome outcome' :=
  .inr ⟨{ res0 := some v }, ⟨hrow.symm, nofun, nofun, nofun, nofun⟩, h, h'⟩

theorem AnswersAlike.of_results {v w : Word} {outcome outcome' : Outcome} (hrow : resultsWritten i = [.res0, .res1])
    (h : outcome = .next (s.setResults v w)) (h' : outcome' = .next (s'.setResults v w)) :
    AnswersAlike i s s' outcome outcome' :=
  .inr ⟨{ res0 := some v, res1 := some w }, ⟨hrow.symm, nofun, nofun, nofun, nofun⟩, h, h'⟩

/-- A command on one list of instances makes the same writes wherever it finds the same list. -/
theorem AnswersAlike.of_instance {α : Type} {xs : List α} {id : BitVec 8} {effect effect' : α → State} (w : α → Writes)
    (hw : ∀ x, AllowedWrites i (w x)) (h : ∀ x, effect x = (w x).apply s) (h' : ∀ x, effect' x = (w x).apply s') :
    AnswersAlike i s s' (complete (encode i) s ((instanceAt xs id).map effect))
      (complete (encode i) s' ((instanceAt xs id).map effect')) := by
  rcases instanceAt_cases xs id with ⟨x, hx, -⟩ | ⟨hle, -⟩
  · rw [complete_instance_of_some hx, complete_instance_of_some hx, h, h']
    exact .inr ⟨w x, hw x, rfl, rfl⟩
  · rw [complete_instance_of_le hle, complete_instance_of_le hle]
    exact .inl ⟨_, rfl, rfl⟩

theorem AnswersAlike.of_instance_res0 {α : Type} {xs : List α} {id : BitVec 8} {v : α → Word}
    (hrow : resultsWritten i = [.res0]) :
    AnswersAlike i s s' (complete (encode i) s ((instanceAt xs id).map fun x => s.setRes0 (v x)))
      (complete (encode i) s' ((instanceAt xs id).map fun x => s'.setRes0 (v x))) :=
  .of_instance (fun x => { res0 := some (v x) }) (fun _ => ⟨hrow.symm, nofun, nofun, nofun, nofun⟩) (fun _ => rfl)
    fun _ => rfl

theorem AnswersAlike.of_setOsc {id : BitVec 8} {f : Osc → Osc} (hrow : resultsWritten i = [])
    (hi : ∃ src fam, i ∈ oscillatorWriters id src fam) {xs : List Osc} :
    AnswersAlike i s s' (complete (encode i) s ((instanceAt xs id).map fun o => s.setOsc id (f o)))
      (complete (encode i) s' ((instanceAt xs id).map fun o => s'.setOsc id (f o))) :=
  .of_instance (fun o => { osc := some (id, f o) })
    (fun _ => ⟨hrow.symm, nofun, nofun, nofun, fun _ _ h => by cases h; exact hi⟩) (fun _ => rfl) fun _ => rfl

theorem splineCommand_alike (p : Config.Params) (fam : BitVec 4) {io io' : Option Word} (form : DeltaForm)
    (hrow : resultsWritten i = [.res0, .res1]) (ha : s.opa = s'.opa) (hb : s.opb = s'.opb) (hio : io = io') :
    AnswersAlike i s s' (splineCommand p (encode i) fam io form s) (splineCommand p (encode i) fam io' form s') := by
  rw [splineCommand, splineCommand, ← ha, ← hb, ← hio]
  cases splineEval p fam s.opa s.opb io form with
  | error cause => exact .inl ⟨cause, rfl, rfl⟩
  | ok r => exact .of_results hrow rfl rfl

theorem oscStep_alike (p : Config.Params) {id : BitVec 8} {src : Source} {fam : BitVec 4} (newPhase : Osc → Word)
    (hi : i ∈ stepCommands id src fam) (hosc : s.osc = s'.osc) :
    AnswersAlike i s s' (oscStep p (encode i) id src fam newPhase s)
      (oscStep p (encode i) id src fam newPhase s') := by
  rcases instanceAt_cases s.osc id with ⟨o, ho, -⟩ | ⟨hle, -⟩
  · have ho' : s'.osc[id.toNat]? = some o := hosc ▸ ho
    cases hy : oscEval p src fam (newPhase o) o.morph with
    | error cause => exact .inl ⟨cause, oscStep_error ho hy, oscStep_error ho' hy⟩
    | ok y =>
      refine .inr ⟨{ res0 := some y, res1 := some (newPhase o), osc := some (id, { o with phase := newPhase o }) },
        ⟨?_, nofun, nofun, nofun, fun _ _ h => ?_⟩, oscStep_ok ho hy, oscStep_ok ho' hy⟩
      · rcases mem_stepCommands_iff.mp hi with rfl | rfl | rfl <;> rfl
      · cases h
        exact ⟨src, fam, List.mem_append_right _ hi⟩
  · exact .inl ⟨_, oscStep_badInstance hle, oscStep_badInstance (hosc ▸ hle)⟩

theorem nextPhase_of_sameInputs {id : BitVec 8} {src : Source} {fam : BitVec 4} (hi : i ∈ stepCommands id src fam)
    (h : SameInputs i s s') (o : Osc) : nextPhase i o s = nextPhase i o s' := by
  rcases mem_stepCommands_iff.mp hi with rfl | rfl | rfl
  · rfl
  · have ha := h.opa List.mem_cons_self
    rw [nextPhase, nextPhase, ha]
  · have ha := h.opa List.mem_cons_self
    rw [nextPhase, nextPhase, ha]

theorem stepCommand_alike {id : BitVec 8} {src : Source} {fam : BitVec 4} (hi : i ∈ stepCommands id src fam)
    (h : SameInputs i s s') : AnswersAlike i s s' (exec i s) (exec i s') := by
  have hphase : (nextPhase i · s) = (nextPhase i · s') := funext (nextPhase_of_sameInputs hi h)
  rw [exec_stepCommand hi, exec_stepCommand hi, hphase]
  exact oscStep_alike _ _ hi h.osc

/-- Any command, in two states with the same inputs, makes the same writes or takes the same fault. -/
theorem exec_alike (h : SameInputs i s s') : AnswersAlike i s s' (exec i s) (exec i s') := by
  cases i with
  | nop => exact .inr ⟨{}, ⟨rfl, nofun, nofun, nofun, nofun⟩, rfl, rfl⟩
  | satu n | sats n | abs | fold16 | fold25 | wrap16 =>
    have ha := h.opa (by simp [operandsRead])
    exact .of_res0 rfl rfl (by rw [ha]; rfl)
  | mul16 | mul24 | mul15 =>
    have ha := h.opa (by simp [operandsRead])
    have hb := h.opb (by simp [operandsRead])
    exact .of_res0 rfl rfl (by rw [ha, hb]; rfl)
  | lerp16 | lerp15 =>
    have ha := h.opa (by simp [operandsRead])
    have hb := h.opb (by simp [operandsRead])
    have hc := h.opc (by simp [operandsRead])
    exact .of_res0 rfl rfl (by rw [ha, hb, hc]; rfl)
  | bilerp16 | bilerp15 =>
    have ha := h.opa (by simp [operandsRead])
    have hb := h.opb (by simp [operandsRead])
    have hc := h.opc (by simp [operandsRead])
    have hd := h.opd (by simp [operandsRead])
    have he := h.ope (by simp [operandsRead])
    have hf := h.opf (by simp [operandsRead])
    exact .of_res0 rfl rfl (by rw [ha, hb, hc, hd, he, hf]; rfl)
  | pdlerpRaw | pdlerpSgn =>
    have ha := h.opa (by simp [operandsRead])
    have hb := h.opb (by simp [operandsRead])
    exact .of_results rfl rfl (by rw [ha, hb]; rfl)
  | pdbilerpRaw | pdbilerpSgn =>
    have ha := h.opa (by simp [operandsRead])
    have hb := h.opb (by simp [operandsRead])
    have hc := h.opc (by simp [operandsRead])
    have hd := h.opd (by simp [operandsRead])
    exact .of_results rfl rfl (by rw [ha, hb, hc, hd]; rfl)
  | bwr8 id =>
    have ha := h.opa (by simp [operandsRead])
    rw [exec_bwr8, exec_bwr8, ← h.buf8, ← ha]
    exact .of_instance (fun b => { buf8 := some (id, b.write s.opa) })
      (fun _ => ⟨rfl, fun _ _ hw => by cases hw; rfl, nofun, nofun, nofun⟩) (fun _ => rfl) fun _ => rfl
  | bwr32 id =>
    have ha := h.opa (by simp [operandsRead])
    rw [exec_bwr32, exec_bwr32, ← h.buf32, ← ha]
    exact .of_instance (fun b => { buf32 := some (id, b.write s.opa) })
      (fun _ => ⟨rfl, nofun, fun _ _ hw => by cases hw; rfl, nofun, nofun⟩) (fun _ => rfl) fun _ => rfl
  | bwr256 id =>
    have ha := h.opa (by simp [operandsRead])
    rw [exec_bwr256, exec_bwr256, ← h.buf256, ← ha]
    exact .of_instance (fun b => { buf256 := some (id, b.write s.opa) })
      (fun _ => ⟨rfl, nofun, nofun, fun _ _ hw => by cases hw; rfl, nofun⟩) (fun _ => rfl) fun _ => rfl
  | brd8 id =>
    have ha := h.opa (by simp [operandsRead])
    rw [exec_brd8, exec_brd8, ← h.buf8, ← ha]
    exact .of_instance_res0 rfl
  | brd32 id =>
    have ha := h.opa (by simp [operandsRead])
    rw [exec_brd32, exec_brd32, ← h.buf32, ← ha]
    exact .of_instance_res0 rfl
  | brd256 id =>
    have ha := h.opa (by simp [operandsRead])
    rw [exec_brd256, exec_brd256, ← h.buf256, ← ha]
    exact .of_instance_res0 rfl
  | qevalRaw fam | qevalSgn fam =>
    have ha := h.opa (by simp [operandsRead])
    have hb := h.opb (by simp [operandsRead])
    exact splineCommand_alike (io := none) _ fam _ rfl ha hb rfl
  | qevaliRaw fam | qevaliSgn fam =>
    have ha := h.opa (by simp [operandsRead])
    have hb := h.opb (by simp [operandsRead])
    have hc := h.opc (by simp [operandsRead])
    exact splineCommand_alike _ fam _ rfl ha hb (congrArg some hc)
  | osetf id =>
    have ha := h.opa (by simp [operandsRead])
    rw [exec_osetf, exec_osetf, ← h.osc, ← ha]
    exact .of_setOsc rfl ⟨.sine, 0#4, by simp [oscillatorWriters]⟩
  | osetm id =>
    have ha := h.opa (by simp [operandsRead])
    rw [exec_osetm, exec_osetm, ← h.osc, ← ha]
    exact .of_setOsc rfl ⟨.sine, 0#4, by simp [oscillatorWriters]⟩
  | opm id =>
    have ha := h.opa (by simp [operandsRead])
    rw [exec_opm, exec_opm, ← h.osc, ← ha]
    exact .of_setOsc rfl ⟨.sine, 0#4, by simp [oscillatorWriters]⟩
  | orst id =>
    rw [exec_orst, exec_orst, ← h.osc]
    exact .of_setOsc rfl ⟨.sine, 0#4, by simp [oscillatorWriters]⟩
  | ord id sel =>
    rw [exec_ord, exec_ord, ← h.osc]
    exact .of_instance_res0 rfl
  | ostep id src fam | ostepfm id src fam | obeat id src fam =>
    exact stepCommand_alike (id := id) (src := src) (fam := fam) (by simp [stepCommands]) h

end

end Machine
end Sys2Proof
end

section
/-!
SUPPORT. The frame of every command: it ends, it writes only what its row and its fields name, and it depends only on
what its row reads (30_encoding.md R56, 70_reset_and_hazards.md R152, R154).
-/

namespace Sys2Proof
namespace Machine

open Safety

/-! ### What any command does to the state -/

/-- A command answers with a fault or with writes it is allowed. -/
theorem exec_cases {i : Instr} {s t : State} (h : exec i s = .next t) :
    (∃ cause, t = s.raise cause (encode i)) ∨ ∃ w, AllowedWrites i w ∧ t = w.apply s := by
  rcases exec_alike (SameInputs.refl i s) with ⟨cause, hfault, -⟩ | ⟨w, hw, hwrites, -⟩
  · exact .inl ⟨cause, Host.Outcome.next.inj (h.symm.trans hfault)⟩
  · exact .inr ⟨w, hw, Host.Outcome.next.inj (h.symm.trans hwrites)⟩

/-- A result register outside the row's writes column is not written. -/
theorem AllowedWrites.result_eq_none {i : Instr} {w : Writes} (hw : AllowedWrites i w) {r : HostReg}
    (hr : r ∉ resultsWritten i) : w.result r = none :=
  Option.eq_none_iff_forall_ne_some.mpr fun _ hx =>
    hr (hw.registers ▸ Writes.mem_registers_iff.mpr ⟨_, hx⟩)

/-- Settles O46: a command completes, with its effect or with a fault. -/
theorem everyCommandEnds : Obligations.EveryCommandEnds := by
  intro i s
  obtain ⟨effect, hexec, -⟩ := exec_complete i s
  exact ⟨_, hexec⟩

/-- Settles O47: neither a fault nor the allowed writes touch an operand or the host's side, and a result register that
is not in the row is not written. -/
theorem commandsWriteOnlyTheirResults : Obligations.CommandsWriteOnlyTheirResults := by
  intro i s t h
  rcases exec_cases h with ⟨cause, rfl⟩ | ⟨w, hw, rfl⟩
  · simp
  · refine ⟨rfl, rfl, rfl, rfl, rfl, rfl, rfl, rfl, fun hr => ?_, fun hr => ?_⟩
    · have hnone : w.res0 = none := hw.result_eq_none hr
      rw [Writes.apply, hnone, Option.getD_none]
    · have hnone : w.res1 = none := hw.result_eq_none hr
      rw [Writes.apply, hnone, Option.getD_none]

/-! ### What a command depends on -/

/-- A command whose row does not read a register answers alike whatever the register holds: with the same fault, or with
the same writes, which stand over the register where they name it. -/
theorem exec_poke {i : Instr} {r : HostReg} (hr : r ∉ operandsRead i) (s : State) (v : Word) :
    (∃ cause, exec i s = .next (s.raise cause (encode i)) ∧
      exec i (poke s r v) = .next (poke (s.raise cause (encode i)) r v)) ∨
    ∃ w, AllowedWrites i w ∧ exec i s = .next (w.apply s) ∧
      exec i (poke s r v) = .next (poke (w.apply s) r ((w.result r).getD v)) := by
  rcases exec_alike (SameInputs.of_poke hr s v) with ⟨cause, h, h'⟩ | ⟨w, hw, h, h'⟩
  · exact .inl ⟨cause, h, by rw [h', raise_poke]⟩
  · exact .inr ⟨w, hw, h, by rw [h', Writes.apply_poke]⟩

/-- Settles O48: the same writes leave an operand register as it was set. -/
theorem commandsReadOnlyTheirOperands : Obligations.CommandsReadOnlyTheirOperands := by
  intro i s r v hr hread
  rcases exec_poke hread s v with ⟨cause, h, h'⟩ | ⟨w, -, h, h'⟩
  · exact ⟨_, h, h'⟩
  · have hresult : w.result r = none := by
      simp only [List.mem_cons, List.not_mem_nil, or_false] at hr
      rcases hr with rfl | rfl | rfl | rfl | rfl | rfl <;> rfl
    rw [hresult, Option.getD_none] at h'
    exact ⟨_, h, h'⟩

/-- No row reads a result register. -/
theorem SameInputs.of_results (i : Instr) (s : State) (v w : Word) :
    SameInputs i s { s with res0 := v, res1 := w } := by
  have hres0 : .res0 ∉ operandsRead i := fun h => absurd (operandsRead_subset i h) (by decide)
  have hres1 : .res1 ∉ operandsRead i := fun h => absurd (operandsRead_subset i h) (by decide)
  exact (SameInputs.of_poke hres0 s v).trans (SameInputs.of_poke hres1 (poke s .res0 v) w)

/-- A register after a write, or after none, of two values it held before. -/
theorem getD_eq_or (x : Option Word) (v v' : Word) :
    x.getD v' = x.getD v ∨ (x.getD v = v ∧ x.getD v' = v') := by
  cases x with
  | none => exact .inr ⟨rfl, rfl⟩
  | some y => exact .inl rfl

/-- Settles O49: the same fault or the same writes, whatever the result registers held. -/
theorem commandsReadNoResultRegister : Obligations.CommandsReadNoResultRegister := by
  intro i s t v w h
  rcases exec_alike (SameInputs.of_results i s v w) with ⟨cause, hs, hs'⟩ | ⟨writes, -, hs, hs'⟩
  · obtain rfl := Host.Outcome.next.inj (h.symm.trans hs)
    have hraise : State.raise { s with res0 := v, res1 := w } cause (encode i) =
        { s.raise cause (encode i) with res0 := v, res1 := w } :=
      (raise_poke (poke s .res0 v) .res1 w cause (encode i)).trans
        (congrArg (poke · .res1 w) (raise_poke s .res0 v cause (encode i)))
    rw [hraise] at hs'
    exact ⟨_, hs', rfl, .inr ⟨s.raise_res0 cause _, rfl⟩, .inr ⟨s.raise_res1 cause _, rfl⟩⟩
  · obtain rfl := Host.Outcome.next.inj (h.symm.trans hs)
    exact ⟨_, hs', rfl, getD_eq_or writes.res0 s.res0 v, getD_eq_or writes.res1 s.res1 w⟩

/-! ### The instances -/

/-- A command keeps the number of instances of every kind. -/
theorem exec_keeps_counts {i : Instr} {s t : State} (h : exec i s = .next t) :
    t.buf8.length = s.buf8.length ∧ t.buf32.length = s.buf32.length ∧ t.buf256.length = s.buf256.length ∧
      t.osc.length = s.osc.length := by
  rcases exec_cases h with ⟨cause, rfl⟩ | ⟨w, -, rfl⟩
  · simp
  · exact ⟨length_storeInstance _ _, length_storeInstance _ _, length_storeInstance _ _, length_storeInstance _ _⟩

/-- Settles O50: an instance that differs is the one written, and the command's field names it. -/
theorem instancesAreIndependent : Obligations.InstancesAreIndependent := by
  intro i s t h
  obtain ⟨h8, h32, h256, hosc⟩ := exec_keeps_counts h
  refine ⟨h8, h32, h256, hosc, ?_⟩
  rcases exec_cases h with ⟨cause, rfl⟩ | ⟨w, hw, rfl⟩
  · simp
  · refine ⟨fun k hk => ?_, fun k hk => ?_, fun k hk => ?_, fun k hk => ?_⟩
    · obtain ⟨id, b, hb, hid⟩ := storeInstance_changed hk
      exact ⟨id, hid, hw.buf8 id b hb⟩
    · obtain ⟨id, b, hb, hid⟩ := storeInstance_changed hk
      exact ⟨id, hid, hw.buf32 id b hb⟩
    · obtain ⟨id, b, hb, hid⟩ := storeInstance_changed hk
      exact ⟨id, hid, hw.buf256 id b hb⟩
    · obtain ⟨id, o, ho, hid⟩ := storeInstance_changed hk
      obtain ⟨src, fam, hi⟩ := hw.osc id o ho
      exact ⟨id, src, fam, hid, hi⟩

end Machine
end Sys2Proof
end

section
/-!
SUPPORT. The host's access and the step: which accesses are admitted, what each does, and what every step keeps
(10_state.md R16, R28, 20_memory.md R42, R43, 60_exceptions.md R135, R136, 70_reset_and_hazards.md R147, R152).
-/

namespace Sys2Proof
namespace Machine

open Safety

/-! ### The step -/

theorem step_of_pending {s : State} {a : Access} {rest : List Access} (h : s.pending = a :: rest) :
    step s = hostAccess a { s with pending := rest, reply := none } := by
  rw [step, hostStep, h]

/-- A step holds the state or makes the first pending access. -/
theorem step_cases {s t : State} (h : step s = .next t) :
    (s.pending = [] ∧ t = s) ∨
      ∃ a rest, s.pending = a :: rest ∧ hostAccess a { s with pending := rest, reply := none } = .next t := by
  cases hp : s.pending with
  | nil =>
    rw [step, hostStep, hp] at h
    exact .inl ⟨rfl, (Host.Outcome.next.inj h).symm⟩
  | cons a rest =>
    rw [step_of_pending hp] at h
    exact .inr ⟨a, rest, rfl, h⟩

/-! ### The register window (20_memory.md R42, R43) -/

/-- A register is found at its own offset, and nowhere else. -/
theorem ofOffset_eq_some_iff {offset : Nat} {r : HostReg} :
    HostReg.ofOffset offset = some r ↔ offset = r.offset := by
  constructor
  · intro h
    unfold HostReg.ofOffset at h
    split at h <;> cases h <;> rfl
  · rintro rfl
    cases r <;> rfl

/-- The twelve offsets are the multiples of 4 below 0x30. -/
theorem exists_offset_iff (offset : Nat) : (∃ r : HostReg, offset = r.offset) ↔ offset % 4 = 0 ∧ offset < 0x30 := by
  constructor
  · rintro ⟨r, rfl⟩
    cases r <;> decide
  · rintro ⟨hword, hlt⟩
    obtain ⟨k, rfl⟩ := Nat.dvd_of_mod_eq_zero hword
    have hk : k < 12 := by omega
    simp only [← ofOffset_eq_some_iff]
    interval_cases k <;> exact ⟨_, rfl⟩

theorem admitted_offset (r : HostReg) : admitted r.offset 4 = .ok r := by
  cases r <;> rfl

/-- An access of another width or at no register's offset is refused (20_memory.md R42). -/
theorem admitted_refused {offset bytes : Nat} (h : bytes ≠ 4 ∨ offset % 4 ≠ 0 ∨ 0x30 ≤ offset) :
    ∃ refusal, admitted offset bytes = .error refusal := by
  by_cases hb : bytes = 4
  · have hnone : HostReg.ofOffset offset = none :=
      Option.eq_none_iff_forall_ne_some.mpr fun r hr => by
        have hmap := (exists_offset_iff offset).mp ⟨r, ofOffset_eq_some_iff.mp hr⟩
        omega
    exact ⟨.accessOffset offset, by simp [admitted, hb, hnone]⟩
  · exact ⟨.accessWidth bytes, by simp [admitted, hb]⟩

/-! ### Each access -/

section
variable (r : HostReg) (v : Word) (s : State)

theorem hostAccess_read_offset : hostAccess (.read r.offset 4) s = .next (s.answer (some (s.readHost r))) := by
  rw [hostAccess, admitted_offset]

theorem hostAccess_write_cmd : hostAccess (.write 0x00 4 v) s = issue v s := rfl

theorem hostAccess_write_offset (hr : r ≠ .cmd) :
    hostAccess (.write r.offset 4 v) s = .next (s.writeHost r v) := by
  rw [hostAccess, admitted_offset]
  cases r with
  | cmd => exact absurd rfl hr
  | _ => rfl

end

theorem issue_of_faulted {s : State} (hs : s.faulted = true) (c : Word) : issue c s = .next s := if_pos hs

/-- Issuing any word ends in a next state. -/
theorem issue_ends (c : Word) (s : State) : ∃ t, issue c s = .next t := by
  cases hs : s.faulted with
  | true => exact ⟨s, issue_of_faulted hs c⟩
  | false =>
    cases hdecode : decode c with
    | error err => exact ⟨_, issue_of_decode_error hs hdecode⟩
    | ok i =>
      rw [issue_of_decode_ok hs hdecode]
      exact everyCommandEnds i s

/-- Settles O53: an access is refused by its width or its offset, and a register answers every other. -/
theorem unadmittedAccessesAreRefused : Obligations.UnadmittedAccessesAreRefused := by
  intro s offset bytes v rest
  refine ⟨fun h => ?_, fun hb hword hlt => ?_⟩
  · obtain ⟨refusal, hrefused⟩ := admitted_refused h
    refine ⟨fun hp => ⟨refusal, ?_⟩, fun hp => ⟨refusal, ?_⟩⟩
    · rw [step_of_pending hp, hostAccess, hrefused]
    · rw [step_of_pending hp, hostAccess, hrefused]
  · obtain ⟨r, rfl⟩ := (exists_offset_iff offset).mpr ⟨hword, hlt⟩
    subst hb
    refine ⟨fun hp => ?_, fun hp => ?_⟩
    · rw [step_of_pending hp, hostAccess_read_offset]
      exact ⟨_, rfl⟩
    · rw [step_of_pending hp]
      by_cases hr : r = .cmd
      · subst hr
        exact issue_ends v _
      · rw [hostAccess_write_offset r v _ hr]
        exact ⟨_, rfl⟩

/-- Settles O51: the access that writes to CMD issues the word, and a legal word is executed. -/
theorem stepRunsTheDecodedCommand : Obligations.StepRunsTheDecodedCommand := by
  intro s c i rest hp hs hdecode
  rw [step_of_pending hp, hostAccess_write_cmd]
  exact issue_of_decode_ok (s := { s with pending := rest, reply := none }) hs hdecode

/-- Settles O52: the lists of the statement are the registers in the order of their offsets. -/
theorem hostRegisterMap : Obligations.HostRegisterMap := by
  refine ⟨fun s rest e he hp => ?_, fun s rest v => ⟨fun hp => ?_, fun e he hp => ?_⟩, fun p offset n v => ?_,
    fun s k => ?_⟩
  · obtain ⟨r, -, rfl⟩ := List.mem_map.mp (show e ∈ [HostReg.cmd, .opa, .opb, .opc, .opd, .ope, .opf, .res0, .res1,
      .status, .fcmd, .reserved].map fun r => (r.offset, s.readHost r) from he)
    rw [step_of_pending hp, hostAccess_read_offset]
    cases r <;> rfl
  · rw [step_of_pending hp, hostAccess_write_cmd]
  · obtain ⟨r, hr, rfl⟩ := List.mem_map.mp (show e ∈ [HostReg.opa, .opb, .opc, .opd, .ope, .opf, .res0, .res1,
      .status, .fcmd, .reserved].map fun r =>
        (r.offset, State.writeHost { s with pending := rest, reply := none } r v) from he)
    have hcmd : r ≠ .cmd := by
      rintro rfl
      revert hr
      decide
    rw [step_of_pending hp, hostAccess_write_offset r v _ hcmd]
  · simp [memRead, memWrite, windowOffset]
  · fin_cases k <;> rfl

/-! ### A halted block (60_exceptions.md R135, R136) -/

/-- A host write stores beside the host's side. -/
theorem writeHost_taken (s : State) (rest : List Access) (r : HostReg) (v : Word) :
    State.writeHost { s with pending := rest, reply := none } r v =
      { s.writeHost r v with pending := rest, reply := none } := by
  cases r <;> rfl

/-- Settles O44: a halted block ignores the word it is issued; reads and operand writes are as without a fault. -/
theorem haltedBlockIgnoresCommands : Obligations.HaltedBlockIgnoresCommands := by
  intro s rest hs
  refine ⟨fun c hp => ?_, fun r hp => ?_, fun v e he hp => ?_⟩
  · rw [step_of_pending hp, hostAccess_write_cmd]
    exact issue_of_faulted (s := { s with pending := rest, reply := none }) hs c
  · rw [step_of_pending hp, hostAccess_read_offset]
    cases r <;> rfl
  · obtain ⟨r, hr, rfl⟩ := List.mem_map.mp (show e ∈ [HostReg.opa, .opb, .opc, .opd, .ope, .opf].map fun r =>
      (r.offset, s.writeHost r v) from he)
    have hcmd : r ≠ .cmd := by
      rintro rfl
      revert hr
      decide
    rw [step_of_pending hp, hostAccess_write_offset r v _ hcmd, writeHost_taken]

/-- An access other than the reset leaves the record of a fault (60_exceptions.md R136). -/
theorem hostAccess_keeps_fault {a : Access} {s t : State} (ha : a ≠ .reset) (hs : s.faulted = true)
    (h : hostAccess a s = .next t) : t.status = s.status ∧ t.fcmd = s.fcmd := by
  cases a with
  | reset => exact absurd rfl ha
  | read offset bytes =>
    obtain ⟨r, -, -, rfl⟩ := hostAccess_read h
    exact ⟨rfl, rfl⟩
  | write offset bytes v =>
    rcases hostAccess_write h with ⟨-, ⟨-, hissue⟩ | ⟨r, -, -, rfl⟩⟩
    · obtain rfl := Host.Outcome.next.inj ((issue_of_faulted hs v).symm.trans hissue)
      exact ⟨rfl, rfl⟩
    · exact ⟨s.writeHost_status r v, s.writeHost_fcmd r v⟩

/-- Settles O45: every other access keeps the record, and the reset access clears it. -/
theorem onlyResetClearsAFault : Obligations.OnlyResetClearsAFault := by
  intro s t hs h
  rcases step_cases h with ⟨hp, rfl⟩ | ⟨a, rest, hp, haccess⟩
  · simp [hp]
  · rw [hp, List.head?_cons]
    refine ⟨fun ha => ?_, fun ha => ?_⟩
    · have hne : a ≠ .reset := fun heq => ha (congrArg some heq)
      exact hostAccess_keeps_fault (s := { s with pending := rest, reply := none }) hne hs haccess
    · obtain rfl := Option.some.inj ha
      obtain rfl := Host.Outcome.next.inj haccess
      exact ⟨rfl, rfl⟩

/-! ### Reset -/

/-- Settles O55: the access is the reset of everything but the host's plan. -/
theorem resetAccessResetsTheBlock : Obligations.ResetAccessResetsTheBlock := by
  intro s rest hp
  rw [step_of_pending hp]
  rfl

/-- Settles O58: no fault is recorded, and each list repeats the fresh instance as often as its parameter says. -/
theorem resetMeetsTheInvariant : Obligations.ResetMeetsTheInvariant :=
  ⟨.inl ⟨rfl, rfl⟩, List.length_replicate, List.length_replicate, List.length_replicate, List.length_replicate⟩

/-! ### The invariant (10_state.md R19, R20, 60_exceptions.md R131) -/

/-- The invariant speaks of the fault record and the counts alone. -/
theorem invariant_of_same {s t : State} (hs : Invariant s) (hstatus : t.status = s.status) (hfcmd : t.fcmd = s.fcmd)
    (hcounts : t.buf8.length = s.buf8.length ∧ t.buf32.length = s.buf32.length ∧ t.buf256.length = s.buf256.length ∧
      t.osc.length = s.osc.length) : Invariant t := by
  obtain ⟨h8, h32, h256, hosc⟩ := hcounts
  rwa [Invariant, FaultRecord, InstanceCounts, hstatus, hfcmd, h8, h32, h256, hosc]

/-- With no fault recorded the record is clear. -/
theorem faultRecord_clear {s : State} (hrecord : FaultRecord s) (hs : s.faulted = false) : s.status = 0#32 := by
  rcases hrecord with ⟨hstatus, -⟩ | ⟨hstatus, -⟩ | ⟨hstatus, -⟩ | ⟨hstatus, -⟩
  · exact hstatus
  all_goals simp [State.faulted, hstatus] at hs

/-- A word that can raise the cause (60_exceptions.md R131). -/
def CanRaise (cause : Cause) (c : Word) : Prop :=
  match cause with
  | .illegal => ∃ e, decode c = .error e
  | .badInstance => ∃ i, decode c = .ok i ∧ namesInstance i = true
  | .tableRange => ∃ i, decode c = .ok i ∧ evaluatesSpline i = true

/-- A fault raised in a good state by a word that can raise it leaves a good state. -/
theorem invariant_raise {s : State} (hinv : Invariant s) (hs : s.faulted = false) {cause : Cause} {c : Word}
    (hc : CanRaise cause c) : Invariant (s.raise cause c) := by
  obtain ⟨hrecord, hcounts⟩ := hinv
  rw [State.raise_eq hs]
  refine ⟨?_, hcounts⟩
  rw [FaultRecord, faultRecord_clear hrecord hs, faultStatus_zero]
  cases cause with
  | illegal => exact .inr (.inl ⟨rfl, hc⟩)
  | badInstance => exact .inr (.inr (.inl ⟨rfl, hc⟩))
  | tableRange => exact .inr (.inr (.inr ⟨rfl, hc⟩))

/-- Only a command that names an instance or a family can miss one. -/
theorem namesInstance_of_missing {i : Instr} {s : State} (h : instancesExist i s = false) : namesInstance i = true := by
  cases i with
  | bwr8 id | brd8 id | bwr32 id | brd32 id | bwr256 id | brd256 id => rfl
  | osetf id | osetm id | opm id | orst id | ord id sel => rfl
  | qevalRaw fam | qevalSgn fam | qevaliRaw fam | qevaliSgn fam => rfl
  | ostep id src fam | ostepfm id src fam | obeat id src fam => rfl
  | _ => cases h

/-- Only a command that evaluates a spline can leave the tables. -/
theorem evaluatesSpline_of_outside {i : Instr} {s : State} (h : tablesInRange i s = false) :
    evaluatesSpline i = true := by
  cases i with
  | ostep id src fam | ostepfm id src fam | obeat id src fam =>
    cases src with
    | sine => cases h
    | spline => rfl
  | qevalRaw fam | qevalSgn fam | qevaliRaw fam | qevaliSgn fam => rfl
  | _ => cases h

/-- The first check a command fails is one its word can fail. -/
theorem canRaise_of_firstFault {c : Word} {i : Instr} {s : State} {cause : Cause} (hdecode : decode c = .ok i)
    (h : firstFault (instancesExist i s) (tablesInRange i s) = some cause) : CanRaise cause c := by
  unfold firstFault at h
  split at h
  case isTrue hmissing =>
    cases h
    exact ⟨i, hdecode, namesInstance_of_missing hmissing⟩
  case isFalse =>
    split at h
    case isTrue houtside =>
      cases h
      exact ⟨i, hdecode, evaluatesSpline_of_outside houtside⟩
    case isFalse => cases h

/-- Issuing a word keeps the invariant: the word is ignored, is illegal, fails a check of its command, or completes. -/
theorem issue_keeps_invariant {c : Word} {s t : State} (hinv : Invariant s) (h : issue c s = .next t) :
    Invariant t := by
  cases hs : s.faulted with
  | true =>
    obtain rfl := Host.Outcome.next.inj ((issue_of_faulted hs c).symm.trans h)
    exact hinv
  | false =>
    cases hdecode : decode c with
    | error err =>
      obtain rfl := Host.Outcome.next.inj ((issue_of_decode_error hs hdecode).symm.trans h)
      rw [← show s.raise .illegal c = faultEntry s 1 c from raise_eq_faultEntry hs .illegal c]
      exact invariant_raise hinv hs ⟨err, hdecode⟩
    | ok i =>
      have hanswers := issue_answers hs hdecode
      have hcounts := exec_keeps_counts ((issue_of_decode_ok hs hdecode).symm.trans h)
      cases hfault : firstFault (instancesExist i s) (tablesInRange i s) with
      | some cause =>
        rw [hfault] at hanswers
        obtain rfl := Host.Outcome.next.inj (hanswers.symm.trans h)
        exact invariant_raise hinv hs (canRaise_of_firstFault hdecode hfault)
      | none =>
        rw [hfault] at hanswers
        obtain ⟨t', ht', hsame⟩ := hanswers
        obtain rfl := Host.Outcome.next.inj (ht'.symm.trans h)
        exact invariant_of_same hinv hsame.status_eq hsame.fcmd_eq hcounts

/-- Every access of the host keeps the invariant. -/
theorem hostAccess_keeps_invariant {a : Access} {s t : State} (hinv : Invariant s) (h : hostAccess a s = .next t) :
    Invariant t := by
  cases a with
  | reset =>
    obtain rfl := Host.Outcome.next.inj h
    exact invariant_of_same resetMeetsTheInvariant rfl rfl ⟨rfl, rfl, rfl, rfl⟩
  | read offset bytes =>
    obtain ⟨r, -, -, rfl⟩ := hostAccess_read h
    exact invariant_of_same hinv rfl rfl ⟨rfl, rfl, rfl, rfl⟩
  | write offset bytes v =>
    rcases hostAccess_write h with ⟨-, ⟨-, hissue⟩ | ⟨r, -, -, rfl⟩⟩
    · exact issue_keeps_invariant hinv hissue
    · exact invariant_of_same hinv (s.writeHost_status r v) (s.writeHost_fcmd r v) (by simp)

/-- Settles O57: taking the access off the host's plan leaves what the invariant speaks of, and the access keeps it. -/
theorem stepKeepsTheInvariant : Obligations.StepKeepsTheInvariant := by
  intro s t hinv h
  rcases step_cases h with ⟨-, rfl⟩ | ⟨a, rest, -, haccess⟩
  · exact hinv
  · have htaken : Invariant { s with pending := rest, reply := none } :=
      invariant_of_same hinv rfl rfl ⟨rfl, rfl, rfl, rfl⟩
    exact hostAccess_keeps_invariant htaken haccess

end Machine
end Sys2Proof
end

section
/-!
SUPPORT. The strict machine: where it stops at a register nothing has written since reset, and why a value it does not
stop at reaches nothing (10_state.md R15, 60_exceptions.md R137).
-/

namespace Sys2Proof
namespace Machine

open Safety

/-! ### The strict step -/

theorem strictStep_of_idle {t : Tracked} (h : t.state.pending = []) : strictStep t = .next t := by
  rw [strictStep, h]

/-- It stops where the access reads an unwritten register, and names such a register. -/
theorem strictStep_stops {t : Tracked} {a : Access} {rest : List Access} {r : HostReg}
    (hp : t.state.pending = a :: rest) (hr : r ∈ accessReads a t.state) (hunwritten : r ∉ t.written) :
    ∃ r' ∈ accessReads a t.state, r' ∉ t.written ∧ strictStep t = .fault (.unwrittenRegister r') := by
  cases hfind : (accessReads a t.state).find? fun r => decide (r ∉ t.written) with
  | none => simpa [hunwritten] using List.find?_eq_none.mp hfind r hr
  | some r' =>
    refine ⟨r', List.mem_of_find?_eq_some hfind, by simpa using List.find?_some hfind, ?_⟩
    simp only [strictStep, hp, hfind]

/-- It goes on exactly where the access reads no unwritten register and the machine goes on. -/
theorem strictStep_next_iff {t t' : Tracked} {a : Access} {rest : List Access} (hp : t.state.pending = a :: rest) :
    strictStep t = .next t' ↔
      (∀ r ∈ accessReads a t.state, r ∈ t.written) ∧ step t.state = .next t'.state ∧
        t'.written = writtenAfter a t.written t'.state := by
  have hall : (∀ r ∈ accessReads a t.state, r ∈ t.written) ↔
      (accessReads a t.state).find? (fun r => decide (r ∉ t.written)) = none := by
    simp [List.find?_eq_none]
  simp only [strictStep, hp, hall]
  cases (accessReads a t.state).find? fun r => decide (r ∉ t.written) with
  | some r => simp
  | none =>
    obtain ⟨state', written'⟩ := t'
    cases step t.state with
    | next s =>
      constructor
      · intro h
        cases h
        exact ⟨rfl, rfl, rfl⟩
      · rintro ⟨-, hs, hwritten⟩
        cases hs
        obtain rfl : written' = writtenAfter a t.written state' := hwritten
        rfl
    | fault f => simp
    | refused r => simp

/-! ### The registers an access reads -/

/-- A legal word issued to a block with no fault reads its command's operands, once its instances exist. -/
theorem accessReads_command {s : State} {c : Word} {i : Instr} (hs : s.faulted = false) (hdecode : decode c = .ok i)
    (hinst : instancesExist i s = true) : accessReads (.write 0x00 4 c) s = operandsRead i := by
  have hreads : accessReads (.write 0x00 4 c) s = commandReads c s := rfl
  simp [hreads, commandReads, hs, hdecode, hinst]

theorem accessReads_read_offset (s : State) (r : HostReg) :
    accessReads (.read r.offset 4) s = if r ∈ unspecifiedAtReset then [r] else [] := by
  rw [accessReads, admitted_offset]

/-- Settles O59: the registers the access reads are the command's operands, or the result register read. -/
theorem strictMachineStopsAtUnwrittenRegisters : Obligations.StrictMachineStopsAtUnwrittenRegisters := by
  refine ⟨fun t c i rest r hp hs hdecode hinst hr hunwritten => ?_, fun t rest r hr hunwritten hp => ?_,
    fun t t' h => ?_⟩
  · have hreads := accessReads_command hs hdecode hinst
    obtain ⟨r', hr', hunwritten', hstop⟩ := strictStep_stops hp (hreads ▸ hr) hunwritten
    exact ⟨r', hreads ▸ hr', hunwritten', hstop⟩
  · have hreads : accessReads (.read r.offset 4) t.state = [r] := by
      rw [accessReads_read_offset]
      revert hr
      cases r <;> decide
    obtain ⟨r', hr', -, hstop⟩ := strictStep_stops hp (hreads ▸ List.mem_singleton_self r) hunwritten
    rw [hreads, List.mem_singleton] at hr'
    rwa [hr'] at hstop
  · cases hp : t.state.pending with
    | nil =>
      obtain rfl := Host.Outcome.next.inj ((strictStep_of_idle hp).symm.trans h)
      rw [step, hostStep, hp]
    | cons a rest => exact ((strictStep_next_iff hp).mp h).2.1

/-! ### What an access reads does not depend on the registers -/

section
variable {s s' : State} (hstatus : s.status = s'.status) (h8 : s.buf8 = s'.buf8) (h32 : s.buf32 = s'.buf32)
  (h256 : s.buf256 = s'.buf256) (hosc : s.osc = s'.osc)
include h8 h32 h256 hosc

theorem instancesExist_congr (i : Instr) : instancesExist i s = instancesExist i s' := by
  simp only [instancesExist, h8, h32, h256, hosc]

include hstatus

theorem commandReads_congr (c : Word) : commandReads c s = commandReads c s' := by
  have hfaulted : s.faulted = s'.faulted := by rw [State.faulted, hstatus, State.faulted]
  rw [commandReads, commandReads, hfaulted]
  cases decode c with
  | ok i => simp only [instancesExist_congr h8 h32 h256 hosc i]
  | error err => rfl

/-- The registers an access reads are decided by the fault record and the instances. -/
theorem accessReads_congr (a : Access) : accessReads a s = accessReads a s' := by
  cases a with
  | reset | read offset bytes => rfl
  | write offset bytes v => rw [accessReads, accessReads, commandReads_congr hstatus h8 h32 h256 hosc]

end

theorem instancesExist_poke (i : Instr) (s : State) (r : HostReg) (v : Word) :
    instancesExist i (poke s r v) = instancesExist i s :=
  instancesExist_congr (poke_buf8 s r v) (poke_buf32 s r v) (poke_buf256 s r v) (poke_osc s r v) i

theorem accessReads_poke (a : Access) (s : State) (r : HostReg) (v : Word) :
    accessReads a (poke s r v) = accessReads a s :=
  accessReads_congr (poke_status s r v) (poke_buf8 s r v) (poke_buf32 s r v) (poke_buf256 s r v) (poke_osc s r v) a

/-! ### Two states that differ in one unread register -/

/-- The state `u` an access reached with another value in `r` differs from the state `t` reached without it in `r` at
most, and not at all if `r` is among the registers written then (log entry 1). -/
structure DiffersAtMost (r : HostReg) (written : List HostReg) (t u : State) : Prop where
  only : ∃ x, u = poke t r x
  overwritten : r ∈ written → u = t

section
variable {r : HostReg} {written : List HostReg} {t u : State}

theorem DiffersAtMost.of_eq (h : u = t) : DiffersAtMost r written t u :=
  ⟨⟨t.readHost r, by rw [poke_readHost, h]⟩, fun _ => h⟩

theorem DiffersAtMost.of_unwritten {x : Word} (h : u = poke t r x) (hr : r ∉ written) :
    DiffersAtMost r written t u :=
  ⟨⟨x, h⟩, fun hwritten => absurd hwritten hr⟩

end

/-- The later of two values set in one register stands. -/
theorem poke_poke_self (s : State) (r : HostReg) (v x : Word) : poke (poke s r v) r x = poke s r x := by
  cases r <;> rfl

/-- Values set in two registers do not disturb each other. -/
theorem poke_comm {r r' : HostReg} (h : r ≠ r') (s : State) (v x : Word) :
    poke (poke s r v) r' x = poke (poke s r' x) r v := by
  cases r <;> cases r' <;> simp_all [poke]

/-- The host's write to a result register is ignored (20_memory.md R43). -/
theorem writeHost_result {r : HostReg} (hr : r ∈ [HostReg.res0, .res1]) (s : State) (x : Word) :
    s.writeHost r x = s := by
  simp only [List.mem_cons, List.not_mem_nil, or_false] at hr
  rcases hr with rfl | rfl <;> rfl

/-- Any other write sets the register, if it has storage of its own (20_memory.md R43). -/
theorem writeHost_eq_poke {r : HostReg} (hr : r ∉ [HostReg.res0, .res1]) (s : State) (x : Word) :
    s.writeHost r x = poke s r x := by
  cases r with
  | res0 | res1 => simp at hr
  | _ => rfl

/-- The registers written after a word is issued: a command that completes adds its results. -/
def writtenByIssue (c : Word) (written : List HostReg) (after : State) : List HostReg :=
  writtenAfter (.write 0x00 4 c) written after

theorem writtenByIssue_of_faulted {c : Word} {written : List HostReg} {after : State} (h : after.faulted = true) :
    writtenByIssue c written after = written := if_pos h

theorem writtenByIssue_of_decode_ok {c : Word} {i : Instr} {written : List HostReg} {after : State}
    (h : after.faulted = false) (hdecode : decode c = .ok i) :
    writtenByIssue c written after = resultsWritten i ++ written := by
  have hafter : writtenByIssue c written after = if after.faulted then written else
      match decode c with
      | .ok i => resultsWritten i ++ written
      | .error _ => written := rfl
  rw [hafter, h, hdecode]
  rfl

section
variable {r : HostReg} {written : List HostReg} (hunwritten : r ∉ written) (v : Word)
include hunwritten

/-- A fault differs where the state before it did. -/
theorem raise_differsAtMost (s : State) (cause : Cause) (c c' : Word) :
    DiffersAtMost r (writtenByIssue c' written (s.raise cause c)) (s.raise cause c)
      ((poke s r v).raise cause c) := by
  refine .of_unwritten (raise_poke s r v cause c) ?_
  rwa [writtenByIssue_of_faulted (s.raise_faulted cause c)]

/-- A command that does not read a register hides its value or hands it on untouched. -/
theorem exec_differsAtMost {c : Word} {i : Instr} {s t : State} (hs : s.faulted = false) (hdecode : decode c = .ok i)
    (hread : r ∉ operandsRead i) (h : exec i s = .next t) :
    ∃ u, exec i (poke s r v) = .next u ∧ DiffersAtMost r (writtenByIssue c written t) t u := by
  rcases exec_alike (SameInputs.of_poke hread s v) with ⟨cause, hfault, hfault'⟩ | ⟨w, hw, hwrites, hwrites'⟩
  · obtain rfl := Host.Outcome.next.inj (h.symm.trans hfault)
    exact ⟨_, hfault', raise_differsAtMost hunwritten v s cause _ c⟩
  · obtain rfl := Host.Outcome.next.inj (h.symm.trans hwrites)
    refine ⟨_, hwrites', ⟨_, w.apply_poke s r v⟩, fun hr => ?_⟩
    rw [writtenByIssue_of_decode_ok (after := w.apply s) hs hdecode, List.mem_append, or_iff_left hunwritten,
      ← hw.registers, Writes.mem_registers_iff] at hr
    obtain ⟨x, hx⟩ := hr
    rw [w.apply_poke, hx, Option.getD_some, Writes.poke_apply_of_result hx]

/-- Issuing a word that does not make the block read a register hides its value or hands it on untouched: a command that
reads it has not found its instances. -/
theorem issue_differsAtMost {c : Word} {s t : State} (hread : r ∉ commandReads c s) (h : issue c s = .next t) :
    ∃ u, issue c (poke s r v) = .next u ∧ DiffersAtMost r (writtenByIssue c written t) t u := by
  cases hs : s.faulted with
  | true =>
    obtain rfl := Host.Outcome.next.inj ((issue_of_faulted hs c).symm.trans h)
    have hs' : (poke s r v).faulted = true := by rw [poke_faulted, hs]
    exact ⟨_, issue_of_faulted hs' c, .of_unwritten rfl (by rwa [writtenByIssue_of_faulted hs])⟩
  | false =>
    have hs' : (poke s r v).faulted = false := by rw [poke_faulted, hs]
    cases hdecode : decode c with
    | error err =>
      have hraise {s' : State} (hs' : s'.faulted = false) : issue c s' = .next (s'.raise .illegal c) :=
        (issue_of_decode_error hs' hdecode).trans (congrArg _ (raise_eq_faultEntry hs' .illegal c).symm)
      obtain rfl := Host.Outcome.next.inj ((hraise hs).symm.trans h)
      exact ⟨_, hraise hs', raise_differsAtMost hunwritten v s .illegal c c⟩
    | ok i =>
      cases hinst : instancesExist i s with
      | true =>
        rw [commandReads, hs, hdecode, if_neg (by simp)] at hread
        simp only [hinst, if_true] at hread
        rw [issue_of_decode_ok hs hdecode] at h
        rw [issue_of_decode_ok hs' hdecode]
        exact exec_differsAtMost hunwritten v hs hdecode hread h
      | false =>
        have hraise {s' : State} (hs' : s'.faulted = false) (hinst' : instancesExist i s' = false) :
            issue c s' = .next (s'.raise .badInstance c) := by
          have hanswers := issue_answers hs' hdecode
          rwa [hinst'] at hanswers
        obtain rfl := Host.Outcome.next.inj ((hraise hs hinst).symm.trans h)
        exact ⟨_, hraise hs' (by rw [instancesExist_poke, hinst]), raise_differsAtMost hunwritten v s .badInstance c c⟩

/-- An access that does not read a register hides its value or hands it on untouched. -/
theorem hostAccess_differsAtMost (hr : r ∈ unspecifiedAtReset) {a : Access} {s t : State} (hread : r ∉ accessReads a s)
    (h : hostAccess a s = .next t) :
    ∃ u, hostAccess a (poke s r v) = .next u ∧ DiffersAtMost r (writtenAfter a written t) t u := by
  cases a with
  | reset =>
    obtain rfl := Host.Outcome.next.inj h
    exact ⟨_, rfl, .of_eq (by rw [poke_pending])⟩
  | read offset bytes =>
    obtain ⟨r', hoffset, rfl, rfl⟩ := hostAccess_read h
    obtain rfl := ofOffset_eq_some_iff.mp hoffset
    have hne : r ≠ r' := by
      rintro rfl
      simp [accessReads_read_offset, hr] at hread
    refine ⟨_, hostAccess_read_offset r' _, .of_unwritten (x := v) ?_ hunwritten⟩
    rw [readHost_poke_of_ne hne]
    cases r <;> rfl
  | write offset bytes x =>
    obtain ⟨rfl, hcase⟩ := hostAccess_write h
    rcases hcase with ⟨hoffset, hissue⟩ | ⟨r', hoffset, hcmd, rfl⟩
    · obtain rfl := ofOffset_eq_some_iff.mp hoffset
      exact issue_differsAtMost hunwritten v hread hissue
    · obtain rfl := ofOffset_eq_some_iff.mp hoffset
      refine ⟨_, hostAccess_write_offset r' x _ hcmd, ?_⟩
      have hafter : writtenAfter (.write r'.offset 4 x) written (s.writeHost r' x) =
          if r' ∈ [HostReg.res0, .res1] then written else r' :: written := by
        rw [writtenAfter, admitted_offset]
        cases r' with
        | cmd => exact absurd rfl hcmd
        | _ => rfl
      rw [hafter]
      by_cases hres : r' ∈ [HostReg.res0, .res1]
      · rw [if_pos hres, writeHost_result hres, writeHost_result hres]
        exact .of_unwritten rfl hunwritten
      · rw [if_neg hres, writeHost_eq_poke hres, writeHost_eq_poke hres]
        by_cases heq : r = r'
        · subst heq
          exact .of_eq (poke_poke_self s r v x)
        · exact .of_unwritten (poke_comm heq s v x) (by simp [heq, hunwritten])

end

/-- Taking an access off the host's plan leaves a value set in a register. -/
theorem poke_taken (s : State) (rest : List Access) (r : HostReg) (v : Word) :
    { poke s r v with pending := rest, reply := none } = poke { s with pending := rest, reply := none } r v := by
  cases r <;> rfl

/-- What an access writes is decided by the fault record after it. -/
theorem writtenAfter_congr {s s' : State} (h : s.status = s'.status) (a : Access) (written : List HostReg) :
    writtenAfter a written s = writtenAfter a written s' := by
  have hfaulted : s.faulted = s'.faulted := by rw [State.faulted, h, State.faulted]
  cases a with
  | reset | read offset bytes => rfl
  | write offset bytes v => rw [writtenAfter, writtenAfter, hfaulted]

/-- Settles O60: with no access pending nothing happens; otherwise the access reads only written registers, so not `r`,
and it hides the value of `r` or hands it on untouched. -/
theorem unwrittenRegistersReachNothing : Obligations.UnwrittenRegistersReachNothing := by
  intro t t' r v hr hunwritten h
  cases hp : t.state.pending with
  | nil =>
    have hp' : (poke t.state r v).pending = [] := by rw [poke_pending, hp]
    obtain rfl := Host.Outcome.next.inj ((strictStep_of_idle hp).symm.trans h)
    exact ⟨{ t with state := poke t.state r v }, strictStep_of_idle hp', rfl, ⟨v, rfl⟩,
      fun hwritten => absurd hwritten hunwritten⟩
  | cons a rest =>
    have hp' : (poke t.state r v).pending = a :: rest := by rw [poke_pending, hp]
    obtain ⟨hreads, hstep, hwritten⟩ := (strictStep_next_iff hp).mp h
    have hread : r ∉ accessReads a { t.state with pending := rest, reply := none } := fun hmem =>
      hunwritten (hreads r (accessReads_congr rfl rfl rfl rfl rfl a ▸ hmem))
    rw [step_of_pending hp] at hstep
    obtain ⟨u, hu, hdiffers⟩ := hostAccess_differsAtMost hunwritten v hr hread hstep
    rw [← hwritten] at hdiffers
    obtain ⟨x, hx⟩ := hdiffers.only
    refine ⟨{ state := u, written := t'.written }, (strictStep_next_iff hp').mpr ⟨?_, ?_, ?_⟩, rfl, ⟨x, hx⟩,
      hdiffers.overwritten⟩
    · rwa [accessReads_poke]
    · rw [step_of_pending hp', poke_taken, hu]
    · exact hwritten.trans (writtenAfter_congr (by rw [hx, poke_status]) a t.written)

end Machine
end Sys2Proof
end

section
/-!
SUPPORT. The kernel's named properties, the morphed samples as integers, and the spline commands with their laws
(44_spline.md R97 to R111).
-/

namespace Sys2Proof
namespace Machine

open Safety

/-! ### The kernel (R102) -/

/-- A word moved to within `tol` of a centre in the word's range stays in that range, so narrowing it is harmless. -/
theorem clampNear_near {centre : Int} (hlo : -2 ^ 31 ≤ centre) (hhi : centre ≤ 2 ^ 31 - 1) (tol : Nat) (v : Word) :
    ((trunc32 (clampNear centre tol v.toInt)).toInt - centre).natAbs ≤ tol := by
  obtain ⟨hv, hv'⟩ := word_toInt_bounds v
  rw [trunc32_toInt] <;> rw [clampNear] <;> omega

section
variable (p : Config.Params) (m : Config.Samples)

theorem quintic_zero : quintic p m 0#16 = m.m2 := if_pos rfl

theorem quintic_ramp (h : isRamp m = true) :
    quintic p m 0x8000#16 =
      trunc32 (clampNear ((m.m2.toInt + m.m3.toInt) / 2) p.midTol (p.kernel m 0x8000#16).toInt) := by
  simp [quintic, h]

theorem quintic_smooth (h : p.smooth m = true) :
    quintic p m 0xFFFF#16 = trunc32 (clampNear m.m3.toInt p.contTol (p.kernel m 0xFFFF#16).toInt) := by
  simp [quintic, h]

end

/-- Samples at equal distances are a ramp. -/
theorem isRamp_of_progression {m : Config.Samples} {a d : Int} (h0 : m.m0.toInt = a) (h1 : m.m1.toInt = a + d)
    (h2 : m.m2.toInt = a + 2 * d) (h3 : m.m3.toInt = a + 3 * d) (h4 : m.m4.toInt = a + 4 * d)
    (h5 : m.m5.toInt = a + 5 * d) : isRamp m = true := by
  simp only [isRamp, h0, h1, h2, h3, h4, h5, Bool.and_eq_true, decide_eq_true_eq]
  omega

/-- Settles O26: at each of the three fractions the kernel is m_2, or is moved to within its tolerance. -/
theorem kernelHasItsNamedProperties : Obligations.KernelHasItsNamedProperties := by
  refine fun p => ⟨quintic_zero p, fun m m6 hsmooth => ?_, fun m a d h0 h1 h2 h3 h4 h5 => ?_⟩
  · obtain ⟨hlo, hhi⟩ := word_toInt_bounds m.m3
    rw [quintic_zero, quintic_smooth p m hsmooth]
    exact clampNear_near hlo hhi p.contTol _
  · obtain ⟨hlo2, hhi2⟩ := word_toInt_bounds m.m2
    obtain ⟨hlo3, hhi3⟩ := word_toInt_bounds m.m3
    rw [quintic_ramp p m (isRamp_of_progression h0 h1 h2 h3 h4 h5)]
    exact clampNear_near (by omega) (by omega) p.midTol _

/-! ### The morphed samples as integers (R98 to R101) -/

theorem baseValue_bounds (w : Word) : -2 ^ 15 ≤ baseValue w ∧ baseValue w < 2 ^ 15 :=
  pdBase_eq_baseValue w ▸ pdBase_bounds w

theorem deltaValue_bounds (w : Word) : -2 ^ 15 ≤ deltaValue w ∧ deltaValue w < 2 ^ 15 :=
  pdDelta_eq_deltaValue w ▸ pdDelta_bounds w

/-- A fraction of a 16-bit value is a 16-bit value. -/
theorem fraction_of_delta_bounds {d f : Int} (hlo : -2 ^ 15 ≤ d) (hhi : d < 2 ^ 15) (hf : 0 ≤ f) (hf' : f < 65536) :
    -2 ^ 15 ≤ d * f / 65536 ∧ d * f / 65536 < 2 ^ 15 := by
  rw [Int.le_ediv_iff_mul_le (by decide), Int.ediv_lt_iff_lt_mul (by decide)]
  constructor <;> nlinarith

section
variable (p : Config.Params) (fam : BitVec 4) (phase morph : Word) (k : Nat)

/-- The part of a morphed sample the next table gives: a fraction of the ROM word's delta. -/
def morphShare : Int :=
  deltaValue (p.wt fam (morph.toNat / 65536) (phase.toNat / 65536 + k)) * ((morph.toNat % 65536 : Nat) : Int) / 65536

theorem morphShare_bounds :
    -2 ^ 15 ≤ morphShare p fam phase morph k ∧ morphShare p fam phase morph k < 2 ^ 15 := by
  obtain ⟨hlo, hhi⟩ := deltaValue_bounds (p.wt fam (morph.toNat / 65536) (phase.toNat / 65536 + k))
  exact fraction_of_delta_bounds hlo hhi (by omega) (by omega)

/-- A morphed sample fits a word: it is the sum of two 16-bit values. -/
theorem toInt_windowSample :
    (windowSample p fam phase morph k).toInt =
      baseValue (p.wt fam (morph.toNat / 65536) (phase.toNat / 65536 + k)) + morphShare p fam phase morph k := by
  obtain ⟨hlo, hhi⟩ := baseValue_bounds (p.wt fam (morph.toNat / 65536) (phase.toNat / 65536 + k))
  obtain ⟨hlo', hhi'⟩ := morphShare_bounds p fam phase morph k
  exact trunc32_toInt (x := _ + morphShare p fam phase morph k) (by omega) (by omega)

theorem windowSample_bounds :
    -2 ^ 16 ≤ (windowSample p fam phase morph k).toInt ∧ (windowSample p fam phase morph k).toInt < 2 ^ 16 := by
  obtain ⟨hlo, hhi⟩ := baseValue_bounds (p.wt fam (morph.toNat / 65536) (phase.toNat / 65536 + k))
  obtain ⟨hlo', hhi'⟩ := morphShare_bounds p fam phase morph k
  rw [toInt_windowSample]
  omega

/-- With morph fraction 0 the next table has no share (R111 (c)). -/
theorem toInt_windowSample_of_morph_zero (h : morph.toNat % 65536 = 0) :
    (windowSample p fam phase morph k).toInt =
      baseValue (p.wt fam (morph.toNat / 65536) (phase.toNat / 65536 + k)) := by
  rw [toInt_windowSample, morphShare, h]
  simp

end

/-- Settles O27: the machine's samples are the window's, and a ROM word whose delta is the difference of the two tables
shares out that difference. -/
theorem morphedSampleBlendsTwoTables : Obligations.MorphedSampleBlendsTwoTables := by
  refine ⟨splineWindow_eq_windowSamples, fun p fam phase morph k => ?_⟩
  intro here next hdelta
  rw [morphedSample_eq_windowSample, toInt_windowSample, morphShare, ← hdelta]

/-! ### An evaluation's sample and delta (R97, R104 to R106) -/

/-- The sample of an evaluation with or without a blend factor. -/
def sampleResult (p : Config.Params) (fam : BitVec 4) (phase morph : Word) (io : Option Word) : Word :=
  match io with
  | none => quinticResult p fam phase morph
  | some io => blendedResult p fam phase morph io

section
variable (p : Config.Params) (fam : BitVec 4) (phase morph : Word) (io : Option Word) (form : DeltaForm)

theorem splineSample_eq_sampleResult :
    splineSample p (splineWindow p fam phase morph) (phaseFraction phase) io = sampleResult p fam phase morph io := by
  cases io with
  | none => exact splineSample_eq_quinticResult p fam phase morph
  | some io =>
    rw [splineSample_some, splineSample_eq_quinticResult, lerpF_eq_lerpValue, satS_eq_clampSigned,
      splineWindow_eq_windowSamples]
    rfl

theorem windowDelta_eq : (splineWindow p fam phase morph).m3 - (splineWindow p fam phase morph).m2 =
    windowDelta p fam phase morph := by
  rw [splineWindow_eq_windowSamples]
  rfl

/-- The evaluator answers exactly when the family exists and the window lies in its tables. -/
theorem splineEval_eq_ok_iff {y d : Word} :
    splineEval p fam phase morph io form = .ok (y, d) ↔
      (fam.toNat < p.numFam ∧ windowInTables p fam phase morph = true) ∧
        y = sampleResult p fam phase morph io ∧ d = deltaOut form (windowDelta p fam phase morph) := by
  rw [← inRange_eq_windowInTables]
  rcases splineEval_cases p fam phase morph io form with
    ⟨hfam, heval⟩ | ⟨-, hrange, heval⟩ | ⟨hfam, hrange, heval⟩
  · simp [heval, Nat.not_lt.mpr hfam]
  · simp [heval, hrange]
  · rw [heval, splineSample_eq_sampleResult, windowDelta_eq]
    simp [hfam, hrange, eq_comm]

end

/-! ### The commands (R107 to R110) -/

section
variable {p : Config.Params} {c : Word} {fam : BitVec 4} {io : Option Word} {form : DeltaForm} {s : State}

theorem splineCommand_of_windowInTables (hfam : fam.toNat < p.numFam)
    (hwindow : windowInTables p fam s.opa s.opb = true) :
    splineCommand p c fam io form s =
      .next (s.setResults (sampleResult p fam s.opa s.opb io) (deltaOut form (windowDelta p fam s.opa s.opb))) := by
  have heval := (splineEval_eq_ok_iff p fam s.opa s.opb io form).mpr ⟨⟨hfam, hwindow⟩, rfl, rfl⟩
  rw [splineCommand, heval]
  rfl

theorem splineCommand_badInstance (hs : s.faulted = false) (hfam : p.numFam ≤ fam.toNat) :
    splineCommand p c fam io form s = .next (faultEntry s 2 c) := by
  rw [splineCommand, splineEval_badInstance p fam _ _ _ _ hfam]
  exact congrArg _ (raise_eq_faultEntry hs .badInstance c)

theorem splineCommand_tableRange (hs : s.faulted = false) (hfam : fam.toNat < p.numFam)
    (hwindow : windowInTables p fam s.opa s.opb = false) :
    splineCommand p c fam io form s = .next (faultEntry s 3 c) := by
  rw [← inRange_eq_windowInTables] at hwindow
  rw [splineCommand, splineEval_tableRange p fam _ _ _ _ hfam hwindow]
  exact congrArg _ (raise_eq_faultEntry hs .tableRange c)

end

section
variable (fam : BitVec 4) (s : State)

theorem exec_qevalRaw : exec (.qevalRaw fam) s =
    splineCommand Config.params (BitVec.ofNat 32 (0x40 + fam.toNat * 2 ^ 8)) fam none .raw s := by
  rw [← show encode (.qevalRaw fam) = BitVec.ofNat 32 (0x40 + fam.toNat * 2 ^ 8) from
    encode_formatF (e := (0x40#8, .f .qevalRaw)) (lookup_opcodeMap_iff.mp rfl) rfl fam]
  rfl

theorem exec_qevalSgn : exec (.qevalSgn fam) s =
    splineCommand Config.params (BitVec.ofNat 32 (0x41 + fam.toNat * 2 ^ 8)) fam none .sgn s := by
  rw [← show encode (.qevalSgn fam) = BitVec.ofNat 32 (0x41 + fam.toNat * 2 ^ 8) from
    encode_formatF (e := (0x41#8, .f .qevalSgn)) (lookup_opcodeMap_iff.mp rfl) rfl fam]
  rfl

theorem exec_qevaliRaw : exec (.qevaliRaw fam) s =
    splineCommand Config.params (BitVec.ofNat 32 (0x42 + fam.toNat * 2 ^ 8)) fam (some s.opc) .raw s := by
  rw [← show encode (.qevaliRaw fam) = BitVec.ofNat 32 (0x42 + fam.toNat * 2 ^ 8) from
    encode_formatF (e := (0x42#8, .f .qevaliRaw)) (lookup_opcodeMap_iff.mp rfl) rfl fam]
  rfl

theorem exec_qevaliSgn : exec (.qevaliSgn fam) s =
    splineCommand Config.params (BitVec.ofNat 32 (0x43 + fam.toNat * 2 ^ 8)) fam (some s.opc) .sgn s := by
  rw [← show encode (.qevaliSgn fam) = BitVec.ofNat 32 (0x43 + fam.toNat * 2 ^ 8) from
    encode_formatF (e := (0x43#8, .f .qevaliSgn)) (lookup_opcodeMap_iff.mp rfl) rfl fam]
  rfl

end

/-- Settles O28: the four commands are the one operation, which completes inside the tables. -/
theorem splineCommandsComplete : Obligations.SplineCommandsComplete := by
  refine ⟨fun fam => ⟨?_, ?_, ?_, ?_⟩, fun fam s hfam hwindow => ⟨?_, ?_, ?_, ?_⟩⟩
  · exact decode_formatF (e := (0x40#8, .f .qevalRaw)) (lookup_opcodeMap_iff.mp rfl) rfl fam
  · exact decode_formatF (e := (0x41#8, .f .qevalSgn)) (lookup_opcodeMap_iff.mp rfl) rfl fam
  · exact decode_formatF (e := (0x42#8, .f .qevaliRaw)) (lookup_opcodeMap_iff.mp rfl) rfl fam
  · exact decode_formatF (e := (0x43#8, .f .qevaliSgn)) (lookup_opcodeMap_iff.mp rfl) rfl fam
  · rw [exec_qevalRaw, splineCommand_of_windowInTables hfam hwindow]; rfl
  · rw [exec_qevalSgn, splineCommand_of_windowInTables hfam hwindow]; rfl
  · rw [exec_qevaliRaw, splineCommand_of_windowInTables hfam hwindow]; rfl
  · rw [exec_qevaliSgn, splineCommand_of_windowInTables hfam hwindow]; rfl

/-- Settles O29: the evaluator's two checks, and the word of each command. -/
theorem splineCommandsCheckTheirTables : Obligations.SplineCommandsCheckTheirTables :=
  ⟨fun _ _ _ _ _ _ hs => ⟨splineCommand_badInstance hs, splineCommand_tableRange hs⟩,
    fun fam s => ⟨exec_qevalRaw fam s, exec_qevalSgn fam s, exec_qevaliRaw fam s, exec_qevaliSgn fam s⟩⟩

/-! ### The laws (R111) -/

/-- Law (a): every sample is clamped. -/
theorem splineSample_natAbs_le (p : Config.Params) (m : Config.Samples) (t : BitVec 16) (io : Option Word) :
    (splineSample p m t io).toInt.natAbs ≤ 16383 := by
  have hclamp (x : Word) : (satS x 15).toInt.natAbs ≤ 16383 := by
    rw [satS_toInt x (by decide)]
    omega
  cases io with
  | none => exact hclamp _
  | some io => exact hclamp _

/-- A blend by a factor that is not negative moves a clamped centre sample toward the sample itself, so away from 0 and
never past the word's range. -/
theorem blend_step {d b : Int} (hd : -49153 ≤ d) (hd' : d ≤ 49153) (hb : 0 ≤ b) (hb' : b < 2 ^ 31) :
    (-49153 * 2 ^ 15 ≤ d * b / 2 ^ 16 ∧ d * b / 2 ^ 16 ≤ 49153 * 2 ^ 15) ∧
      (0 ≤ d → 0 ≤ d * b / 2 ^ 16) ∧ (d ≤ 0 → d * b / 2 ^ 16 ≤ 0) := by
  have hlower : -49153 * 2 ^ 15 ≤ d * b / 2 ^ 16 := by
    rw [Int.le_ediv_iff_mul_le (by decide)]
    nlinarith
  have hupper : d * b / 2 ^ 16 < 49153 * 2 ^ 15 + 1 := by
    rw [Int.ediv_lt_iff_lt_mul (by decide)]
    nlinarith
  refine ⟨⟨hlower, by omega⟩, fun hpos => Int.ediv_nonneg (mul_nonneg hpos hb) (by decide), fun hneg => ?_⟩
  exact Int.ediv_nonpos_of_nonpos_of_neg (mul_nonpos_of_nonpos_of_nonneg hneg hb) (by decide)

/-- Law (b), its one idea: a blend between a sample and its own clamped value clamps to that value, for a factor that is
not negative, or for a sample the clamp does not move. -/
theorem clamp_blend_of_clamped {m b : Word} (hm : -2 ^ 16 ≤ m.toInt) (hm' : m.toInt < 2 ^ 16)
    (h : 0 ≤ b.toInt ∨ m.toInt.natAbs ≤ 16383) :
    clampSigned (lerpF (satS m 15) m b 16).toInt 15 = clampSigned m.toInt 15 := by
  have hq := satS_toInt m (bits := 15) (by decide)
  by_cases hin : m.toInt.natAbs ≤ 16383
  · have hsame : satS m 15 = m := BitVec.eq_of_toInt_eq (by omega)
    rw [hsame, lerpF_equal_endpoints]
  · have hb : 0 ≤ b.toInt := h.resolve_right hin
    obtain ⟨-, hb'⟩ := word_toInt_bounds b
    obtain ⟨⟨hlo, hhi⟩, hup, hdown⟩ :=
      blend_step (d := m.toInt - (satS m 15).toInt) (by omega) (by omega) hb (by omega)
    have hlerp : (lerpF (satS m 15) m b 16).toInt =
        (satS m 15).toInt + (m.toInt - (satS m 15).toInt) * b.toInt / 2 ^ 16 :=
      toInt_lerpF (by omega) (by omega) (by omega) (by omega)
    rw [hlerp, clampSigned, clampSigned]
    omega

/-- Law (b): at fraction 0 an evaluation's sample is the clamped centre sample. -/
theorem toInt_sampleResult_of_fraction_zero (p : Config.Params) (fam : BitVec 4) {phase : Word} (morph : Word)
    {io : Option Word} (hphase : phase.toNat % 65536 = 0)
    (h : ∀ b, io = some b → 0 ≤ b.toInt ∨ (windowSample p fam phase morph 2).toInt.natAbs ≤ 16383) :
    (sampleResult p fam phase morph io).toInt = clampSigned (windowSample p fam phase morph 2).toInt 15 := by
  have hquintic : splineSample p (splineWindow p fam phase morph) (phaseFraction phase) none =
      satS (windowSample p fam phase morph 2) 15 := by
    rw [phaseFraction_eq_ofNat, hphase, splineSample_none, quintic_zero, splineWindow_eq_windowSamples]
    rfl
  rw [← splineSample_eq_sampleResult]
  cases io with
  | none => rw [hquintic, satS_toInt_eq_clampSigned _ (by decide)]
  | some b =>
    obtain ⟨hlo, hhi⟩ := windowSample_bounds p fam phase morph 2
    rw [splineSample_some, hquintic, satS_toInt_eq_clampSigned _ (by decide), splineWindow_eq_windowSamples]
    exact clamp_blend_of_clamped hlo hhi (h b rfl)

section
variable (p : Config.Params) (fam : BitVec 4) {phase phase' : Word} (morph : Word)
  (h : phase'.toNat / 65536 = phase.toNat / 65536)
include h

/-- Law (d): the window and so the delta look at the phase's top half alone. -/
theorem windowDelta_congr : windowDelta p fam phase' morph = windowDelta p fam phase morph := by
  simp only [windowDelta, windowSample, h]

theorem windowInTables_congr : windowInTables p fam phase' morph = windowInTables p fam phase morph := by
  simp only [windowInTables, h]

end

/-- Law (e): a spline command changes the results or the fault record. -/
theorem splineCommand_frame (p : Config.Params) (c : Word) (fam : BitVec 4) (io : Option Word) (form : DeltaForm)
    {s : State} (hs : s.faulted = false) :
    ∃ t, splineCommand p c fam io form s = .next t ∧
      (t = { s with res0 := t.res0, res1 := t.res1 } ∨ t = { s with status := t.status, fcmd := t.fcmd }) := by
  rw [splineCommand]
  cases splineEval p fam s.opa s.opb io form with
  | ok r => exact ⟨s.setResults r.1 r.2, rfl, .inl rfl⟩
  | error cause => exact ⟨faultEntry s cause.code.toNat c, congrArg _ (raise_eq_faultEntry hs cause c), .inr rfl⟩

/-- Settles O31: the laws one by one, on an evaluation that answers; the last clause is computed. -/
theorem splineLaws : Obligations.SplineLaws := by
  refine ⟨fun p fam phase morph io form y d heval => ?_, fun p c fam io form s => splineCommand_frame p c fam io form,
    fun p m hm => ?_⟩
  · obtain ⟨⟨hfam, hwindow⟩, rfl, rfl⟩ := (splineEval_eq_ok_iff p fam phase morph io form).mp heval
    refine ⟨?_, toInt_sampleResult_of_fraction_zero p fam morph, fun hmorph => ?_, fun phase' io' hphase => ?_⟩
    · rw [← splineSample_eq_sampleResult]
      exact splineSample_natAbs_le _ _ _ io
    · intro m e he
      have hm : m = windowSamples p fam phase morph := splineWindow_eq_windowSamples p fam phase morph
      rw [hm] at he
      obtain ⟨k, -, rfl⟩ := List.mem_map.mp (show e ∈ [0, 1, 2, 3, 4, 5].map fun k =>
        (windowSample p fam phase morph k, k) from he)
      exact toInt_windowSample_of_morph_zero p fam phase morph k hmorph
    · refine ⟨_, (splineEval_eq_ok_iff p fam phase' morph io' form).mpr ⟨⟨hfam, ?_⟩, rfl, ?_⟩⟩
      · rw [windowInTables_congr p fam morph hphase, hwindow]
      · rw [windowDelta_congr p fam morph hphase]
  · rw [splineSample_some, splineSample_none, quintic_zero, hm]
    decide

end Machine
end Sys2Proof
end

section
/-!
SUPPORT. The step commands of the oscillator: their words, their samples, their faults, and the period of the phase
(45_osc.md R112, R118 to R123).
-/

namespace Sys2Proof
namespace Machine

open Safety

/-! ### The words of the step commands (30_encoding.md R53, R60) -/

section
variable {e : BitVec 8 × Form} (he : e ∈ opcodeMap) {mk : BitVec 8 → Source → BitVec 4 → Instr} (hmk : e.2 = .o mk)
  (id : BitVec 8)
include he hmk

theorem encode_sineStep : encode (mk id .sine 0#4) = BitVec.ofNat 32 (e.1.toNat + id.toNat * 2 ^ 8) := by
  rw [encode_formatO he hmk]
  simp [Source.number]

theorem encode_splineStep (fam : BitVec 4) :
    encode (mk id .spline fam) = BitVec.ofNat 32 (e.1.toNat + id.toNat * 2 ^ 8 + 2 ^ 16 + fam.toNat * 2 ^ 20) := by
  rw [encode_formatO he hmk]
  simp [Source.number]

end

theorem ostep_mem_opcodeMap : (0x53#8, Form.o .ostep) ∈ opcodeMap := lookup_opcodeMap_iff.mp rfl
theorem ostepfm_mem_opcodeMap : (0x54#8, Form.o .ostepfm) ∈ opcodeMap := lookup_opcodeMap_iff.mp rfl
theorem obeat_mem_opcodeMap : (0x55#8, Form.o .obeat) ∈ opcodeMap := lookup_opcodeMap_iff.mp rfl

/-! ### A missing oscillator (R121 to R123) -/

/-- A step command checks its oscillator first, whatever its path. -/
theorem exec_stepCommand_badInstance {i : Instr} {id : BitVec 8} {src : Source} {fam : BitVec 4} {s : State} {c : Word}
    (hi : i ∈ stepCommands id src fam) (hc : encode i = c) (hle : s.osc.length ≤ id.toNat) (hs : s.faulted = false) :
    exec i s = .next (faultEntry s 2 c) := by
  rw [exec_stepCommand hi, oscStep_badInstance hle, raise_eq_faultEntry hs, hc]
  rfl

/-- Settles O34: each is a step command, with its word on its path. -/
theorem stepCommandsCheckTheirInstance : Obligations.StepCommandsCheckTheirInstance := by
  intro id fam s hle hs
  have missing {i : Instr} {src : Source} {fam : BitVec 4} {c : Word} (hi : i ∈ stepCommands id src fam)
      (hc : encode i = c) : exec i s = .next (faultEntry s 2 c) := exec_stepCommand_badInstance hi hc hle hs
  refine ⟨?_, ?_, ?_, ?_, ?_, ?_⟩
  · exact missing (mem_stepCommands_iff.mpr (.inl rfl)) (encode_sineStep ostep_mem_opcodeMap rfl id)
  · exact missing (mem_stepCommands_iff.mpr (.inr (.inl rfl))) (encode_sineStep ostepfm_mem_opcodeMap rfl id)
  · exact missing (mem_stepCommands_iff.mpr (.inr (.inr rfl))) (encode_sineStep obeat_mem_opcodeMap rfl id)
  · exact missing (mem_stepCommands_iff.mpr (.inl rfl)) (encode_splineStep ostep_mem_opcodeMap rfl id fam)
  · exact missing (mem_stepCommands_iff.mpr (.inr (.inl rfl))) (encode_splineStep ostepfm_mem_opcodeMap rfl id fam)
  · exact missing (mem_stepCommands_iff.mpr (.inr (.inr rfl))) (encode_splineStep obeat_mem_opcodeMap rfl id fam)

/-! ### The sine path (R119) -/

theorem sineIndex_eq_ofNat (phase : Word) : sineIndex phase = BitVec.ofNat 12 (phase.toNat / 2 ^ 20) := by
  apply BitVec.eq_of_toNat_eq
  rw [sineIndex, BitVec.extractLsb'_toNat, Nat.shiftRight_eq_div_pow, BitVec.toNat_ofNat]

/-- The index after the last wraps to 0. -/
theorem sineIndex_succ_eq_ofNat (phase : Word) :
    sineIndex phase + 1#12 = BitVec.ofNat 12 ((phase.toNat / 2 ^ 20 + 1) % 4096) := by
  apply BitVec.eq_of_toNat_eq
  rw [sineIndex_eq_ofNat, BitVec.toNat_add, BitVec.toNat_ofNat, BitVec.toNat_ofNat, BitVec.toNat_ofNat]
  omega

theorem sineFraction_eq_ofNat (p : Config.Params) (phase : Word) :
    sineFraction p phase = BitVec.ofNat 32 (phase.toNat / 2 ^ p.sineFracLsb.val % 65536) := by
  apply BitVec.eq_of_toNat_eq
  rw [sineFraction, extractLow_toNat (by decide), BitVec.toNat_ushiftRight, Nat.shiftRight_eq_div_pow,
    BitVec.toNat_ofNat, Nat.mod_eq_of_lt (a := _ % 65536) (by omega)]
  rfl

theorem sineSample_eq_sineValue (p : Config.Params) (phase : Word) : sineSample p phase = sineValue p phase := by
  rw [sineSample, lerpF_eq_lerpValue, sineIndex_succ_eq_ofNat, sineIndex_eq_ofNat, sineFraction_eq_ofNat]
  rfl

/-- Settles O35: the sine path answers at every phase. -/
theorem sineStepsComplete : Obligations.SineStepsComplete := by
  intro id s o ho i hi
  have hsample : oscEval Config.params .sine 0#4 (nextPhase i o s) o.morph =
      .ok (sineValue Config.params (nextPhase i o s)) :=
    congrArg Except.ok (sineSample_eq_sineValue Config.params (nextPhase i o s))
  rw [exec_stepCommand (show i ∈ stepCommands id .sine 0#4 from hi), oscStep_ok ho hsample]
  rfl

/-! ### The spline path (R120) -/

section
variable {p : Config.Params} {fam : BitVec 4} {phase : Word} (morph : Word)

theorem oscEval_spline_of_windowInTables (hfam : fam.toNat < p.numFam)
    (hwindow : windowInTables p fam (splinePhase p fam phase) morph = true) :
    oscEval p .spline fam phase morph = .ok (quinticResult p fam (splinePhase p fam phase) morph) := by
  have heval := (splineEval_eq_ok_iff p fam (splinePhase p fam phase) morph none .raw).mpr
    ⟨⟨hfam, hwindow⟩, rfl, rfl⟩
  rw [oscEval, splinePath, shiftRight_eq_splinePhase, heval]
  rfl

theorem oscEval_spline_badInstance (hfam : p.numFam ≤ fam.toNat) :
    oscEval p .spline fam phase morph = .error .badInstance := by
  rw [oscEval, splinePath, splineEval_badInstance p fam _ _ _ _ hfam]
  rfl

theorem oscEval_spline_tableRange (hfam : fam.toNat < p.numFam)
    (hwindow : windowInTables p fam (splinePhase p fam phase) morph = false) :
    oscEval p .spline fam phase morph = .error .tableRange := by
  rw [← inRange_eq_windowInTables] at hwindow
  rw [oscEval, splinePath, shiftRight_eq_splinePhase, splineEval_tableRange p fam _ _ _ _ hfam hwindow]
  rfl

end

/-- Settles O36: the spline path answers inside the tables. -/
theorem splineStepsComplete : Obligations.SplineStepsComplete := by
  intro id fam s o ho hfam i hi hwindow
  have hsample : oscEval Config.params .spline fam (nextPhase i o s) o.morph =
      .ok (quinticResult Config.params fam (splinePhase Config.params fam (nextPhase i o s)) o.morph) :=
    oscEval_spline_of_windowInTables o.morph hfam hwindow
  rw [exec_stepCommand (show i ∈ stepCommands id .spline fam from hi), oscStep_ok ho hsample]
  rfl

theorem advance_eq_nextPhase (id : BitVec 8) (src : Source) (fam : BitVec 4) (o : Osc) (s : State) :
    o.advance = nextPhase (.ostep id src fam) o s := by
  simp [nextPhase, Osc.advance, BitVec.ofNat_add]

theorem advanceFM_eq_nextPhase (id : BitVec 8) (src : Source) (fam : BitVec 4) (o : Osc) (s : State) :
    o.advanceFM s.opa = nextPhase (.ostepfm id src fam) o s := by
  rw [nextPhase, Osc.advanceFM, Config.fmFracBits, mul_eq_productBits _ _ (by decide)]

theorem beat_eq_nextPhase (id : BitVec 8) (src : Source) (fam : BitVec 4) (o : Osc) (s : State) :
    o.beat s.opa = nextPhase (.obeat id src fam) o s := by
  simp [nextPhase, Osc.beat, BitVec.ofNat_mul]

/-- A step whose sample source faults takes that fault (R121). -/
theorem oscStep_fault {p : Config.Params} {c : Word} {id : BitVec 8} {src : Source} {fam : BitVec 4}
    {newPhase : Osc → Word} {s : State} {o : Osc} {cause : Cause} (hs : s.faulted = false)
    (ho : s.osc[id.toNat]? = some o) (hy : oscEval p src fam (newPhase o) o.morph = .error cause) :
    oscStep p c id src fam newPhase s = .next (faultEntry s cause.code.toNat c) := by
  rw [oscStep_error ho hy, raise_eq_faultEntry hs]

/-- A command that is one step operation with its own word is that operation with the word it encodes to. -/
theorem exec_eq_oscStep_of_word {i : Instr} {c : Word} {p : Config.Params} {id : BitVec 8} {src : Source}
    {fam : BitVec 4} {newPhase : Osc → Word} {s : State} (hc : encode i = c)
    (h : exec i s = oscStep p (encode i) id src fam newPhase s) : exec i s = oscStep p c id src fam newPhase s :=
  hc ▸ h

/-- Settles O37: the evaluator's two checks on the spline path, and the word and the new phase of each command. -/
theorem faultingStepLeavesTheOscillator : Obligations.FaultingStepLeavesTheOscillator := by
  refine ⟨fun p c id fam newPhase s o hs ho => ⟨fun hfam => ?_, fun hfam hwindow => ?_⟩,
    fun id fam s => ⟨?_, ?_, ?_, fun o => ⟨?_, ?_, ?_⟩⟩⟩
  · exact oscStep_fault hs ho (oscEval_spline_badInstance o.morph hfam)
  · exact oscStep_fault hs ho (oscEval_spline_tableRange o.morph hfam hwindow)
  · exact exec_eq_oscStep_of_word (encode_splineStep ostep_mem_opcodeMap rfl id fam) rfl
  · exact exec_eq_oscStep_of_word (encode_splineStep ostepfm_mem_opcodeMap rfl id fam) rfl
  · exact exec_eq_oscStep_of_word (encode_splineStep obeat_mem_opcodeMap rfl id fam) rfl
  · exact advance_eq_nextPhase id .spline fam o s
  · exact advanceFM_eq_nextPhase id .spline fam o s
  · exact beat_eq_nextPhase id .spline fam o s

/-! ### The period of the phase (R112) -/

/-- One OSTEP on the sine path adds the frequency to the phase of an oscillator with no nudge. -/
theorem ostep_sine_phase {id : BitVec 8} {s t : State} {o : Osc} (ho : s.osc[id.toNat]? = some o)
    (hnudge : o.phaseModulation = 0#32) (h : exec (.ostep id .sine 0#4) s = .next t) :
    t.osc[id.toNat]? = some { o with phase := o.phase + o.frequency } := by
  have hnext : nextPhase (.ostep id .sine 0#4) o s = o.phase + o.frequency := by
    rw [← advance_eq_nextPhase, Osc.advance, hnudge, BitVec.add_zero]
  have hstep := sineStepsComplete id s o ho (.ostep id .sine 0#4) List.mem_cons_self
  obtain ⟨hlt, -⟩ := List.getElem?_eq_some_iff.mp ho
  rw [hnext] at hstep
  obtain rfl := Host.Outcome.next.inj (hstep.symm.trans h)
  simp [List.getElem?_set_self hlt]

/-- After `n` such steps from phase 0 the phase is `n` times the frequency, modulo 2^32. -/
theorem phase_of_sine_run {id : BitVec 8} {run : Nat → State} {o : Osc} (ho : (run 0).osc[id.toNat]? = some o)
    (hphase : o.phase = 0#32) (hnudge : o.phaseModulation = 0#32)
    (hrun : ∀ n, exec (.ostep id .sine 0#4) (run n) = .next (run (n + 1))) (n : Nat) :
    (run n).osc[id.toNat]? = some { o with phase := BitVec.ofNat 32 (n * o.frequency.toNat) } := by
  induction n with
  | zero =>
    rw [ho, Nat.zero_mul, ← hphase]
  | succ n ih =>
    rw [ostep_sine_phase ih hnudge (hrun n), Nat.succ_mul, BitVec.ofNat_add, BitVec.ofNat_toNat, BitVec.setWidth_eq]

/-- Multiples of a divisor of 2^32 below 2^32 itself do not wrap to 0. -/
theorem ofNat_mul_ne_zero {n f : Nat} (hn : 0 < n) (hf : 0 < f) (hlt : n * f < 2 ^ 32) :
    BitVec.ofNat 32 (n * f) ≠ 0#32 := by
  have hpos : 0 < n * f := Nat.mul_pos hn hf
  intro h
  have hval := congrArg BitVec.toNat h
  rw [BitVec.toNat_ofNat, Nat.mod_eq_of_lt hlt, BitVec.toNat_zero] at hval
  omega

/-- Settles O38: the phase is a multiple of the frequency, which reaches 2^32 at step 2^32 / F and not before. -/
theorem phaseReturnsToZeroExactly : Obligations.PhaseReturnsToZeroExactly := by
  intro id run o ho hphase hnudge hfreq hdvd hrun
  have hpos : 0 < o.frequency.toNat := by bv_omega
  refine ⟨?_, fun n hn hlt => ?_⟩
  · rw [phase_of_sine_run ho hphase hnudge hrun, Nat.div_mul_cancel hdvd]
    rfl
  · have hbelow : n * o.frequency.toNat < 2 ^ 32 := by
      rw [mul_comm]
      exact (Nat.lt_div_iff_mul_lt' hdvd n).mp hlt
    rw [phase_of_sine_run ho hphase hnudge hrun]
    simpa using ofNat_mul_ne_zero hn hpos hbelow

end Machine
end Sys2Proof
end
